-- ==== Sys2Proof/Word.lean ====
section
/-! DEFINITION. The word types of the machine (10_state.md R20, 30_encoding.md R72): a byte, the 16-bit word of `pc`,
`I`, a stack entry and an opcode, and the widths of the operand fields. -/

namespace Sys2Proof

/-- A general register, a timer, a byte of memory, the field `kk`. -/
abbrev Byte := BitVec 8

/-- An opcode, `pc`, `I`, a stack entry. -/
abbrev Word := BitVec 16

/-- The fields `x`, `y` and `n`, and a logical key 0..F. -/
abbrev Nibble := BitVec 4

/-- The field `nnn`. -/
abbrev Addr12 := BitVec 12

end Sys2Proof
end

