-- ==== Sys2Proof/Syntax.lean ====
section
/-! DEFINITION. The instruction set: one constructor per row of spec/opcode_table.json (30_encoding.md R76), in the
table's order. Operands have exactly the widths of the fields of R72, so every value a term can hold is a value the
encoding can hold (R73). -/

namespace Sys2Proof

/-- The 34 instructions. The docstring of each gives its pattern and its rule. -/
inductive Instr where
  /-- `00E0` CLS, R100 -/
  | cls
  /-- `00EE` RET, R101 -/
  | ret
  /-- `1nnn` JP nnn, R102 -/
  | jp (nnn : Addr12)
  /-- `2nnn` CALL nnn, R103 -/
  | call (nnn : Addr12)
  /-- `3xkk` SE Vx, kk, R111 -/
  | seVxKk (x : Nibble) (kk : Byte)
  /-- `4xkk` SNE Vx, kk, R112 -/
  | sneVxKk (x : Nibble) (kk : Byte)
  /-- `5xy0` SE Vx, Vy, R113 -/
  | seVxVy (x y : Nibble)
  /-- `6xkk` LD Vx, kk, R120 -/
  | ldVxKk (x : Nibble) (kk : Byte)
  /-- `7xkk` ADD Vx, kk, R121 -/
  | addVxKk (x : Nibble) (kk : Byte)
  /-- `8xy0` LD Vx, Vy, R130 -/
  | ldVxVy (x y : Nibble)
  /-- `8xy1` OR Vx, Vy, R131 -/
  | orVxVy (x y : Nibble)
  /-- `8xy2` AND Vx, Vy, R132 -/
  | andVxVy (x y : Nibble)
  /-- `8xy3` XOR Vx, Vy, R133 -/
  | xorVxVy (x y : Nibble)
  /-- `8xy4` ADD Vx, Vy, R134 -/
  | addVxVy (x y : Nibble)
  /-- `8xy5` SUB Vx, Vy, R135 -/
  | subVxVy (x y : Nibble)
  /-- `8xy6` SHR Vx, R136; y is decoded and not used (R77) -/
  | shrVx (x y : Nibble)
  /-- `8xy7` SUBN Vx, Vy, R137 -/
  | subnVxVy (x y : Nibble)
  /-- `8xyE` SHL Vx, R138; y is decoded and not used (R77) -/
  | shlVx (x y : Nibble)
  /-- `9xy0` SNE Vx, Vy, R114 -/
  | sneVxVy (x y : Nibble)
  /-- `Annn` LD I, nnn, R150 -/
  | ldINnn (nnn : Addr12)
  /-- `Bnnn` JP V0, nnn, R151 -/
  | jpV0 (nnn : Addr12)
  /-- `Cxkk` RND Vx, kk, R152 -/
  | rnd (x : Nibble) (kk : Byte)
  /-- `Dxyn` DRW Vx, Vy, n, R166 -/
  | drw (x y n : Nibble)
  /-- `Ex9E` SKP Vx, R180 -/
  | skp (x : Nibble)
  /-- `ExA1` SKNP Vx, R181 -/
  | sknp (x : Nibble)
  /-- `Fx07` LD Vx, DT, R190 -/
  | ldVxDt (x : Nibble)
  /-- `Fx0A` LD Vx, K, R191 -/
  | ldVxK (x : Nibble)
  /-- `Fx15` LD DT, Vx, R192 -/
  | ldDtVx (x : Nibble)
  /-- `Fx18` LD ST, Vx, R193 -/
  | ldStVx (x : Nibble)
  /-- `Fx1E` ADD I, Vx, R194 -/
  | addIVx (x : Nibble)
  /-- `Fx29` LD F, Vx, R195 -/
  | ldFVx (x : Nibble)
  /-- `Fx33` LD B, Vx, R196 -/
  | ldBVx (x : Nibble)
  /-- `Fx55` LD [I], Vx, R197 -/
  | ldMemVx (x : Nibble)
  /-- `Fx65` LD Vx, [I], R198 -/
  | ldVxMem (x : Nibble)
  deriving DecidableEq, Repr

end Sys2Proof
end

