-- ==== Sys2Proof/Decode.lean ====
section
/-! DEFINITION. The decoder (30_encoding.md R75), total on any word and on any bytes and rejecting by name, and the
encoder written from the same encoding tables (R74, R76). -/

namespace Sys2Proof

/-- Why bytes are not an instruction. -/
inductive Reject where
  /-- two bytes whose opcode matches no row of the opcode map (R78) -/
  | unrecognised (op : Word)
  /-- fewer than the two bytes every instruction has (R72) -/
  | tooShort (n : Nat)
  deriving DecidableEq, Repr

/-- `h = op[15:12]` (R72). -/
def fieldH (op : Word) : Nibble := op.extractLsb' 12 4

/-- `x = op[11:8]` (R72). -/
def fieldX (op : Word) : Nibble := op.extractLsb' 8 4

/-- `y = op[7:4]` (R72). -/
def fieldY (op : Word) : Nibble := op.extractLsb' 4 4

/-- `n = op[3:0]` (R72). -/
def fieldN (op : Word) : Nibble := op.extractLsb' 0 4

/-- `kk = op[7:0]` (R72). -/
def fieldKk (op : Word) : Byte := op.extractLsb' 0 8

/-- `nnn = op[11:0]` (R72). -/
def fieldNnn (op : Word) : Addr12 := op.extractLsb' 0 12

/-- Family 0 is matched on all 16 bits (R75, C2). -/
def decodeFamily0 (nnn : Addr12) : Option Instr :=
  if nnn = 0x0E0 then some .cls
  else if nnn = 0x0EE then some .ret
  else none

/-- Family 8 by the low nibble (R75). -/
def decodeFamily8 (x y n : Nibble) : Option Instr :=
  match n.toNat with
  | 0x0 => some (.ldVxVy x y)
  | 0x1 => some (.orVxVy x y)
  | 0x2 => some (.andVxVy x y)
  | 0x3 => some (.xorVxVy x y)
  | 0x4 => some (.addVxVy x y)
  | 0x5 => some (.subVxVy x y)
  | 0x6 => some (.shrVx x y)
  | 0x7 => some (.subnVxVy x y)
  | 0xE => some (.shlVx x y)
  | _ => none

/-- Family E by the low byte (R75). -/
def decodeFamilyE (x : Nibble) (kk : Byte) : Option Instr :=
  if kk = 0x9E then some (.skp x)
  else if kk = 0xA1 then some (.sknp x)
  else none

/-- Family F by the low byte (R75, R76). -/
def decodeFamilyF (x : Nibble) (kk : Byte) : Option Instr :=
  if kk = 0x07 then some (.ldVxDt x)
  else if kk = 0x0A then some (.ldVxK x)
  else if kk = 0x15 then some (.ldDtVx x)
  else if kk = 0x18 then some (.ldStVx x)
  else if kk = 0x1E then some (.addIVx x)
  else if kk = 0x29 then some (.ldFVx x)
  else if kk = 0x33 then some (.ldBVx x)
  else if kk = 0x55 then some (.ldMemVx x)
  else if kk = 0x65 then some (.ldVxMem x)
  else none

/-- Decoding of one opcode, the procedure of R75 by the family nibble; `none` is the verdict "unrecognised". -/
def decodeWord (op : Word) : Option Instr :=
  match (fieldH op).toNat with
  | 0x0 => decodeFamily0 (fieldNnn op)
  | 0x1 => some (.jp (fieldNnn op))
  | 0x2 => some (.call (fieldNnn op))
  | 0x3 => some (.seVxKk (fieldX op) (fieldKk op))
  | 0x4 => some (.sneVxKk (fieldX op) (fieldKk op))
  | 0x5 => if fieldN op = 0 then some (.seVxVy (fieldX op) (fieldY op)) else none
  | 0x6 => some (.ldVxKk (fieldX op) (fieldKk op))
  | 0x7 => some (.addVxKk (fieldX op) (fieldKk op))
  | 0x8 => decodeFamily8 (fieldX op) (fieldY op) (fieldN op)
  | 0x9 => if fieldN op = 0 then some (.sneVxVy (fieldX op) (fieldY op)) else none
  | 0xA => some (.ldINnn (fieldNnn op))
  | 0xB => some (.jpV0 (fieldNnn op))
  | 0xC => some (.rnd (fieldX op) (fieldKk op))
  | 0xD => some (.drw (fieldX op) (fieldY op) (fieldN op))
  | 0xE => decodeFamilyE (fieldX op) (fieldKk op)
  | _ => decodeFamilyF (fieldX op) (fieldKk op)

/-- The opcode of two bytes in memory order: the byte at the lower address is the high byte (R52). -/
def wordOfBytes (hi lo : Byte) : Word := hi ++ lo

/-- The two bytes of an opcode in memory order (R52, R72). -/
def bytesOfWord (op : Word) : List Byte := [op.extractLsb' 8 8, op.extractLsb' 0 8]

/-- Decoding of bytes: the instruction and the bytes after it, or the reason there is none. -/
def decode : List Byte → Except Reject (Instr × List Byte)
  | hi :: lo :: rest =>
    match decodeWord (wordOfBytes hi lo) with
    | some i => .ok (i, rest)
    | none => .error (.unrecognised (wordOfBytes hi lo))
  | bs => .error (.tooShort bs.length)

/-- The opcode of an instruction: the fixed bits of its row of R76 with the operands at the places of R74. -/
def encode : Instr → Word
  | .cls => 0x00E0
  | .ret => 0x00EE
  | .jp nnn => 0x1#4 ++ nnn
  | .call nnn => 0x2#4 ++ nnn
  | .seVxKk x kk => 0x3#4 ++ x ++ kk
  | .sneVxKk x kk => 0x4#4 ++ x ++ kk
  | .seVxVy x y => 0x5#4 ++ x ++ y ++ 0x0#4
  | .ldVxKk x kk => 0x6#4 ++ x ++ kk
  | .addVxKk x kk => 0x7#4 ++ x ++ kk
  | .ldVxVy x y => 0x8#4 ++ x ++ y ++ 0x0#4
  | .orVxVy x y => 0x8#4 ++ x ++ y ++ 0x1#4
  | .andVxVy x y => 0x8#4 ++ x ++ y ++ 0x2#4
  | .xorVxVy x y => 0x8#4 ++ x ++ y ++ 0x3#4
  | .addVxVy x y => 0x8#4 ++ x ++ y ++ 0x4#4
  | .subVxVy x y => 0x8#4 ++ x ++ y ++ 0x5#4
  | .shrVx x y => 0x8#4 ++ x ++ y ++ 0x6#4
  | .subnVxVy x y => 0x8#4 ++ x ++ y ++ 0x7#4
  | .shlVx x y => 0x8#4 ++ x ++ y ++ 0xE#4
  | .sneVxVy x y => 0x9#4 ++ x ++ y ++ 0x0#4
  | .ldINnn nnn => 0xA#4 ++ nnn
  | .jpV0 nnn => 0xB#4 ++ nnn
  | .rnd x kk => 0xC#4 ++ x ++ kk
  | .drw x y n => 0xD#4 ++ x ++ y ++ n
  | .skp x => 0xE#4 ++ x ++ 0x9E#8
  | .sknp x => 0xE#4 ++ x ++ 0xA1#8
  | .ldVxDt x => 0xF#4 ++ x ++ 0x07#8
  | .ldVxK x => 0xF#4 ++ x ++ 0x0A#8
  | .ldDtVx x => 0xF#4 ++ x ++ 0x15#8
  | .ldStVx x => 0xF#4 ++ x ++ 0x18#8
  | .addIVx x => 0xF#4 ++ x ++ 0x1E#8
  | .ldFVx x => 0xF#4 ++ x ++ 0x29#8
  | .ldBVx x => 0xF#4 ++ x ++ 0x33#8
  | .ldMemVx x => 0xF#4 ++ x ++ 0x55#8
  | .ldVxMem x => 0xF#4 ++ x ++ 0x65#8

/-- The bytes of an instruction in memory order. -/
def encodeBytes (i : Instr) : List Byte := bytesOfWord (encode i)

/-- The instruction the decoder reads from the bits `w` of a row `nbits` wide, the bits above `nbits` being 0. Every
instruction is one 16-bit word stored high byte first (R72, R52). -/
def decodeTableWord (nbits w : Nat) : Option Instr :=
  if w < 2 ^ nbits ∧ nbits ≤ 16 then
    match decode (bytesOfWord (BitVec.ofNat 16 w)) with
    | .ok (i, _) => some i
    | .error _ => none
  else none

end Sys2Proof
end

