-- ==== Sys2Proof/Config.lean ====
section
/-! DEFINITION. The parameters of the block (00_scope.md R5): the constants the spec fixes, the open choices as a
record of named values, and the one free value. -/

namespace Sys2Proof.Config

/-- `MEM_SIZE` (R5, R50). -/
def memSize : Nat := 4096

/-- `LOAD_OFFSET` (R5, R261): where the loader puts the program and where `pc` starts. -/
def loadOffset : Nat := 0x200

/-- `STACK_DEPTH` (R5, R29). -/
def stackDepth : Nat := 16

/-- `DISPLAY_W` (R5, R32). -/
def displayW : Nat := 64

/-- `DISPLAY_H` (R5, R32). -/
def displayH : Nat := 32

/-- `GLYPH_HEIGHT` (R5, R195): bytes of one font glyph. -/
def glyphHeight : Nat := 5

/-- `FONT_BYTES` (R5, the table of R31), glyphs 0 to F, five bytes each. PRESUMED: the spec gives the values from general
knowledge (D11, GK1), log 9, unsafe. -/
def fontBytes : List Byte :=
  [0xF0, 0x90, 0x90, 0x90, 0xF0, 0x20, 0x60, 0x20, 0x20, 0x70] ++
  [0xF0, 0x10, 0xF0, 0x80, 0xF0, 0xF0, 0x10, 0xF0, 0x10, 0xF0] ++
  [0x90, 0x90, 0xF0, 0x10, 0x10, 0xF0, 0x80, 0xF0, 0x10, 0xF0] ++
  [0xF0, 0x80, 0xF0, 0x90, 0xF0, 0xF0, 0x10, 0x20, 0x40, 0x40] ++
  [0xF0, 0x90, 0xF0, 0x90, 0xF0, 0xF0, 0x90, 0xF0, 0x10, 0xF0] ++
  [0xF0, 0x90, 0xF0, 0x90, 0x90, 0xE0, 0x90, 0xE0, 0x90, 0xE0] ++
  [0xF0, 0x80, 0x80, 0x80, 0xF0, 0xE0, 0x90, 0x90, 0x90, 0xE0] ++
  [0xF0, 0x80, 0xF0, 0x80, 0xF0, 0xF0, 0x80, 0xF0, 0x80, 0x80]

/-- `ILLEGAL_POLICY` (R5, R79): what an unrecognised opcode does. -/
inductive IllegalPolicy where
  /-- the fault `IllegalOpcode`; the default -/
  | report
  /-- a no-op -/
  | ignore
  deriving DecidableEq, Repr

/-- `ON_FAULT` (R5, R225): what the driver does after a reported fault. -/
inductive OnFault where
  /-- `halt`: no further cycle; the default -/
  | haltRun
  /-- `continue`: the next cycle runs from the current pc -/
  | continueRun
  deriving DecidableEq, Repr

/-- `VF_ALIAS_ORDER` (R5, R136, R138, R140): the reading of `8Fy6` and `8FyE`. -/
inductive AliasOrder where
  /-- the flag is written and then the register that now holds it is shifted; the default -/
  | listed
  /-- the operand is read once, before the flag is written -/
  | sampled
  deriving DecidableEq, Repr

/-- The open choices of R5 that an instruction or the driver depends on. State carries one such record and no step
writes it (log 6). -/
structure Params where
  illegalPolicy : IllegalPolicy
  onFault : OnFault
  aliasOrder : AliasOrder
  deriving DecidableEq, Repr

/-- The defaults R5 names. -/
def Params.default : Params := ⟨.report, .haltRun, .listed⟩

/-- `RAND` (R5, R152, R245): the byte of the n-th draw when the random source has none ready in State. A FREE VALUE: it has
no body a proof could use, so nothing is known of any draw (D14, U6, log 5). -/
opaque randomByte : Nat → Byte

end Sys2Proof.Config
end

