-- ==== Sys2Proof/Machine/State.lean ====
section
/-! DEFINITION. The state of the machine as plain data (10_state.md), the reasons a step can stop, and the machine right
after reset (10_state.md R40). -/

namespace Sys2Proof.Machine

/-- The faults of R220, each with the information its row says is reported. All are safe: the spec reports the same fault
in the same place. -/
inductive Fault where
  /-- `MemRangeData`, code 0x11, class 1: `Dxyn` with n > 0, `Fx33`, `Fx55`, `Fx65` when the last byte of the range is above
  4095. Reported: the opcode, `I`, the first out-of-range address `max(I, 4096)`, the last address of the range. -/
  | memRangeData (op i : Word) (first last : Nat)
  /-- `MemRangeFetch`, code 0x12, class 1: the fetch of any cycle when `pc` is above 4094. Reported: `pc`, unadvanced. -/
  | memRangeFetch (pc : Word)
  /-- `PixelRange`, code 0x13, class 1: `set` and `is_set` called from outside with a coordinate off the grid; raised by no
  instruction. Reported: the coordinates. -/
  | pixelRange (x y : Nat)
  /-- `KeyRange`, code 0x14, class 1: `Ex9E`, `ExA1` when `Vx` is above 15. Reported: the opcode, `Vx`. -/
  | keyRange (op : Word) (vx : Byte)
  /-- `StackOverflow`, code 0x21, class 2: `2nnn` with 16 entries in use. Reported: the opcode, the advanced `pc`. -/
  | stackOverflow (op pc : Word)
  /-- `StackUnderflow`, code 0x22, class 2: `00EE` with the stack empty. Reported: the opcode, the advanced `pc`. -/
  | stackUnderflow (op pc : Word)
  /-- `IllegalOpcode`, code 0x30, class 3: execute of an unrecognised opcode when the policy is `report`. Reported: the
  opcode, the advanced `pc`. -/
  | illegalOpcode (op pc : Word)
  deriving DecidableEq, Repr

/-- Why the model gives no next state and no fault. -/
inductive Refusal where
  /-- an instruction without a meaning yet, by its mnemonic; raised by an arm of `exec` only. Safe. -/
  | notModelled (mnemonic : String)
  /-- the loader was given an image of `size` bytes that does not fit (R266, U14); raised by `load`, never by a step. Safe:
  "the machine does not start". -/
  | imageTooLarge (size : Nat)
  deriving DecidableEq, Repr

/-- One thing the outside does between cycles (R11), in the order it happens (log 1, log 2). -/
inductive HostEvent where
  /-- the driver runs one cycle (R70) -/
  | cycle
  /-- the scheduler delivers one tick (R231) -/
  | tick
  /-- logical key `k` goes down (R240, R242) -/
  | keyDown (k : Nibble)
  /-- logical key `k` goes up (R240) -/
  | keyUp (k : Nibble)
  /-- an event of a key that is none of the sixteen (R191) -/
  | unknownKey
  /-- the renderer asks for one pixel, `PIXEL(x, y)` (R163, R246) -/
  | pixel (x y : Nat)
  deriving DecidableEq, Repr

/-- `M` (R31, R50): the cells that differ from what the machine holds after reset, by rising address. -/
abbrev Memory := List Host.Cell

/-- `D[py][px]` (R32): 32 rows of 64 pixels, `true` is on. -/
abbrev Display := Vector (Vector Bool 64) 32

/-- The state: the architectural state of R20, the pending `Fx0A` of R34 (d), and the inputs and parameters the step takes
(R5, R11), which are the model's own fields. -/
structure State where
  /-- `V[0]` to `V[15]` (R21); `V[15]` is VF (R22) -/
  v : Vector Byte 16
  /-- the address register `I` (R26) -/
  i : Word
  /-- the program counter (R23, R24) -/
  pc : Word
  /-- the delay timer `DT` (R27) -/
  dt : Byte
  /-- the sound timer `ST` (R28) -/
  st : Byte
  /-- the call stack (R29) -/
  stack : Vector Word 16
  /-- `SP`, the number of valid stack entries, 0 to 16 (R30) -/
  sp : Fin 17
  /-- `M` (R31) -/
  mem : Memory
  /-- `D` (R32) -/
  disp : Display
  /-- the register index of a pending `Fx0A` (R34 (d), R253) -/
  waiting : Option Nibble
  /-- the key levels (R241); an input of the block -/
  keys : Vector Bool 16
  /-- what the outside still does, in order (R11, R232); an input of the block -/
  host : List HostEvent
  /-- the bytes the random source has ready (R245); an input of the block -/
  rand : List Byte
  /-- how many `Cxkk` have drawn a byte: the index of the free value `Config.randomByte` -/
  draws : Nat
  /-- the faults reported so far after which the driver went on, newest first (R222, R225); an output of the block -/
  faults : List Fault
  /-- the parameters of R5 -/
  params : Config.Params
  deriving DecidableEq, Repr

/-- The machine right after reset and before the loader (R40, R260): memory lists nothing, so every byte is the font's or 0.
The inputs: no key is down (R241), the outside has nothing left to do and no random byte is ready (DESIGN CHOICE, log 2 and
log 5, unsafe: a claim about a run starts from reset with any such lists), the parameters at the defaults of R5 (log 6). -/
def State.reset : State where
  v := Vector.replicate 16 0
  i := 0
  pc := BitVec.ofNat 16 Config.loadOffset
  dt := 0
  st := 0
  stack := Vector.replicate 16 0
  sp := 0
  mem := []
  disp := Vector.replicate 32 (Vector.replicate 64 false)
  waiting := none
  keys := Vector.replicate 16 false
  host := []
  rand := []
  draws := 0
  faults := []
  params := Config.Params.default

end Sys2Proof.Machine
end

