-- ==== Sys2Proof/Machine/Display.lean ====
section
/-! DEFINITION. The display component (45_family_D_draw.md R160 to R169): its four operations `clear`, `set`, `is_set` and
`draw_sprite`, on `D[py][px]`. -/

namespace Sys2Proof.Machine.Display

/-- The pixel `D[py][px]`. -/
def isOn (d : Display) (px : Fin 64) (py : Fin 32) : Bool := d[py][px]

/-- `D[py][px] <- b`. -/
def put (d : Display) (px : Fin 64) (py : Fin 32) (b : Bool) : Display :=
  Vector.set d py.val (Vector.set d[py] px.val b px.isLt) py.isLt

/-- `D[py][px] <- D[py][px] ^ 1`. -/
def toggle (d : Display) (px : Fin 64) (py : Fin 32) : Display := d.put px py (!d.isOn px py)

/-- `clear()` (R161): all pixels off, whatever they were. -/
def clear (_ : Display) : Display := Vector.replicate 32 (Vector.replicate 64 false)

/-- `set(x, y)` (R162): turn one pixel on, coordinates checked and never wrapped. No instruction invokes it. -/
def setPixel (d : Display) (x y : Nat) : Except Fault Display :=
  if h : x < 64 ∧ y < 32 then .ok (d.put ⟨x, h.1⟩ ⟨y, h.2⟩ true) else .error (.pixelRange x y)

/-- `is_set(x, y)`, the renderer's `PIXEL(x, y)` (R163): read one pixel, coordinates checked and never wrapped. -/
def isSet (d : Display) (x y : Nat) : Except Fault Bool :=
  if h : x < 64 ∧ y < 32 then .ok (d.isOn ⟨x, h.1⟩ ⟨y, h.2⟩) else .error (.pixelRange x y)

/-- The column of coordinate `x`: wrapped, not clipped (R164). -/
def wrapX (x : Nat) : Fin 64 := ⟨x % 64, Nat.mod_lt x (by decide)⟩

/-- The row of coordinate `y`: wrapped, not clipped (R164). -/
def wrapY (y : Nat) : Fin 32 := ⟨y % 32, Nat.mod_lt y (by decide)⟩

/-- One sprite bit at (x, y) (R164, R165): a 1 toggles its pixel and records a collision if the pixel was on; a 0 does
nothing. The pair is the display and the collision flag so far. -/
def drawBit (x y : Nat) (bit : Bool) (dc : Display × Bool) : Display × Bool :=
  if bit then (dc.1.toggle (wrapX x) (wrapY y), dc.2 || dc.1.isOn (wrapX x) (wrapY y)) else dc

/-- One sprite row (R164): column `c` of the row is bit `7 - c` of the byte (R167, log 11). -/
def drawRow (x y : Nat) (row : Byte) (dc : Display × Bool) : Display × Bool :=
  (List.range 8).foldl (fun acc c => drawBit (x + c) y (row.getLsbD (7 - c)) acc) dc

/-- The rows of a sprite from coordinate `y` down (R164). -/
def drawRows (x : Nat) : Nat → List Byte → Display × Bool → Display × Bool
  | _, [], dc => dc
  | y, row :: rows, dc => drawRows x (y + 1) rows (drawRow x y row dc)

/-- `draw_sprite(x, y, rows, height)` (R164): the new display and the collision flag, the height being the number of
rows. -/
def drawSprite (d : Display) (x y : Nat) (rows : List Byte) : Display × Bool := drawRows x y rows (d, false)

end Sys2Proof.Machine.Display
end

