-- ==== Sys2Proof/Machine/Memory.lean ====
section
/-! DEFINITION. The memory `M` (10_state.md R31, 20_memory.md R50 to R57) as a canonical list of cells: what an unlisted
address reads as, reading, writing, and the form every operation keeps. Bounds are checked by the operations that use an
address (Operands.lean, Ops.lean), before they read or write (R51). -/

namespace Sys2Proof.Machine.Memory

/-- What an address that no cell lists reads as: the reset contents of R40, the font from address 0 and 0 above it. -/
def unlisted (a : Nat) : Byte := Config.fontBytes.getD a 0

/-- The byte at address `a` (R57: the last value written, or the reset value). -/
def read : Memory → Nat → Byte
  | [], a => unlisted a
  | (k, b) :: rest, a => if k = a then b else read rest a

/-- The cells without any at address `a`. -/
def erase (m : Memory) (a : Nat) : Memory := m.filter fun c => c.1 != a

/-- The cells with `b` at address `a`, in their place by address. -/
def insert : Memory → Nat → Byte → Memory
  | [], a, b => [(a, b)]
  | (k, c) :: rest, a, b =>
    if a < k then (a, b) :: (k, c) :: rest
    else if a = k then (a, b) :: rest
    else (k, c) :: insert rest a b

/-- Store the byte `b` at address `a`: a byte equal to what the address reads as unlisted is not listed. -/
def write (m : Memory) (a : Nat) (b : Byte) : Memory :=
  if b = unlisted a then erase m a else insert m a b

/-- Store bytes at rising addresses from `a` (R57: ascending order). -/
def writeBytes : Memory → Nat → List Byte → Memory
  | m, _, [] => m
  | m, a, b :: bs => writeBytes (write m a b) (a + 1) bs

/-- The canonical form: addresses strictly rising, all of them addresses of the machine (R50), and no cell that says what
an unlisted address says. -/
abbrev wf (m : Memory) : Prop :=
  m.Pairwise (fun c d => c.1 < d.1) ∧ ∀ c ∈ m, c.1 < Config.memSize ∧ c.2 ≠ unlisted c.1

end Sys2Proof.Machine.Memory
end

