-- ==== Sys2Proof/Machine/Ops.lean ====
section
/-! DEFINITION. The named operations over registers, pc, call stack and memory, and the one operation by which an
instruction takes a fault (60_exceptions.md). -/

namespace Sys2Proof.Machine

/-- What an instruction answers. -/
abbrev Result := Host.Outcome State Fault Refusal

/-! ## Registers (R21 to R28) -/

/-- `V[x]`. -/
def State.getV (s : State) (x : Nibble) : Byte := s.v[x.toNat]

/-- `V[x] <- b`. -/
def State.setV (s : State) (x : Nibble) (b : Byte) : State := { s with v := s.v.set x.toNat b x.isLt }

/-- `VF <- b` (R22). -/
def State.setVF (s : State) (b : Byte) : State := s.setV 0xF b

/-- `I <- a` (R26). -/
def State.setI (s : State) (a : Word) : State := { s with i := a }

/-- `pc <- a` (R23). -/
def State.setPc (s : State) (a : Word) : State := { s with pc := a }

/-- `DT <- b` (R27). -/
def State.setDt (s : State) (b : Byte) : State := { s with dt := b }

/-- `ST <- b` (R28). -/
def State.setSt (s : State) (b : Byte) : State := { s with st := b }

/-- The memory becomes `m`. -/
def State.setMem (s : State) (m : Memory) : State := { s with mem := m }

/-- The display becomes `d`. -/
def State.setDisp (s : State) (d : Display) : State := { s with disp := d }

/-- The stack entries and their count. -/
def State.setStack (s : State) (entries : Vector Word 16) (n : Fin 17) : State :=
  { s with stack := entries, sp := n }

/-! ## The model's own fields -/

/-- The pending `Fx0A`, if any (R34 (d)). -/
def State.setWaiting (s : State) (w : Option Nibble) : State := { s with waiting := w }

/-- The key levels (R241). -/
def State.setKeys (s : State) (ks : Vector Bool 16) : State := { s with keys := ks }

/-- What the outside still does (R11). -/
def State.setHost (s : State) (es : List HostEvent) : State := { s with host := es }

/-- The random bytes still ready and the number drawn (R245). -/
def State.setRandom (s : State) (bs : List Byte) (n : Nat) : State := { s with rand := bs, draws := n }

/-- One more fault reported (R222). -/
def State.addFault (s : State) (r : Fault) : State := { s with faults := r :: s.faults }

/-! ## pc and skips -/

/-- The driver's advance, `pc <- (pc + 2) mod 2^16` (R70). -/
def State.advance (s : State) : State := s.setPc (s.pc + 2)

/-- The skip mechanism of R110: two more if the condition holds. -/
def State.skipIf (s : State) (c : Bool) : State := if c then s.setPc (s.pc + 2) else s

/-! ## Memory -/

/-- `M[a]` (R57). The address has been checked. -/
def State.readByte (s : State) (a : Nat) : Byte := s.mem.read a

/-- `MemWrite` of bytes at rising addresses (R8, R56). The range has been checked. -/
def State.storeBytes (s : State) (a : Nat) (bs : List Byte) : State := s.setMem (s.mem.writeBytes a bs)

/-- The instruction fetch (R52, R53): two bytes at `pc`, the first the high one; legal iff `pc + 1 <= 4095`. -/
def fetch (s : State) : Except Fault Word :=
  if s.pc.toNat + 1 < Config.memSize then
    .ok (wordOfBytes (s.readByte s.pc.toNat) (s.readByte (s.pc.toNat + 1)))
  else .error (.memRangeFetch s.pc)

/-! ## The call stack (R29, R30) -/

/-- Push: `none` when all 16 entries are in use. -/
def State.push (s : State) (w : Word) : Option State :=
  if h : s.sp.val < 16 then
    some (s.setStack (s.stack.set s.sp.val w h) ⟨s.sp.val + 1, by omega⟩)
  else none

/-- Pop: the top entry and the state without it, the entry itself left as it is; `none` when the stack is empty. -/
def State.pop (s : State) : Option (Word × State) :=
  if h : 0 < s.sp.val then
    some (s.stack[s.sp.val - 1]'(by omega), s.setStack s.stack ⟨s.sp.val - 1, by omega⟩)
  else none

/-! ## Taking a fault (60_exceptions.md) -/

/-- The 8-bit code of a fault (the table of R220). -/
def Fault.code : Fault → Byte
  | .memRangeData _ _ _ _ => 0x11
  | .memRangeFetch _ => 0x12
  | .pixelRange _ _ => 0x13
  | .keyRange _ _ => 0x14
  | .stackOverflow _ _ => 0x21
  | .stackUnderflow _ _ => 0x22
  | .illegalOpcode _ _ => 0x30

/-- `raise` (R8): the instruction ends with the fault, no state of the machine written by it (R224). There is no vector, no
saved state and no handler (R222). -/
def raise (r : Fault) : Result := .fault r

/-- An instruction whose one check came out as `f` (R226) and whose effect is `t`. -/
def checked (f : Option Fault) (t : State) : Result :=
  match f with
  | some r => raise r
  | none => .next t

/-- What the driver does with a reported fault, `s` being the state the fault left (R222, R223, R224, R225): the end of the
run, or on to the next cycle with the report kept (log 7). There is no return from a fault: "nothing to restore". -/
def reportFault (r : Fault) (s : State) : Result :=
  match s.params.onFault with
  | .haltRun => .fault r
  | .continueRun => .next (s.addFault r)

/-- Execute of an unrecognised opcode (R79): the fault, or a no-op. -/
def unrecognised (op : Word) (s : State) : Result :=
  match s.params.illegalPolicy with
  | .report => raise (.illegalOpcode op s.pc)
  | .ignore => .next s

end Sys2Proof.Machine
end

