-- ==== Sys2Proof/Machine/Flags.lean ====
section
/-! DEFINITION. The flag computations: the values that go to VF (10_state.md R22, 43_family_8_alu.md). Each is the full byte
0 or 1. -/

namespace Sys2Proof.Machine

/-- The byte 1 or 0. -/
def flagByte (c : Bool) : Byte := if c then 1 else 0

/-- Carry out of bit 7: 1 if the unbounded sum exceeds 255 (R134). -/
def carryFlag (p q : Byte) : Byte := flagByte (p.toNat + q.toNat > 255)

/-- 1 if `p > q`, strictly, as unsigned values (R135, R137). -/
def greaterFlag (p q : Byte) : Byte := flagByte (p.toNat > q.toNat)

/-- Bit 0 (R136). -/
def lowBitFlag (p : Byte) : Byte := flagByte (p.getLsbD 0)

/-- Bit 7 (R138). -/
def highBitFlag (p : Byte) : Byte := flagByte (p.getLsbD 7)

end Sys2Proof.Machine
end

