-- ==== Sys2Proof/Machine/Operands.lean ====
section
/-! DEFINITION. Operand forms: the zero-extended immediates (30_encoding.md R73), the range `I` .. `I + n - 1` of a data
access (20_memory.md R51, R63), the key index (46_family_E_keys.md R182), and the multi-byte layouts of memory
(20_memory.md R56). -/

namespace Sys2Proof.Machine

/-- `nnn` as an address: zero-extended to 16 bits (R73). -/
def addrOf (nnn : Addr12) : Word := nnn.setWidth 16

/-- A byte zero-extended to 16 bits (R151, R194, R195). -/
def wide (b : Byte) : Word := b.setWidth 16

/-- The effective address `I + offset`, unbounded (R63). -/
def State.dataAddr (s : State) (offset : Nat) : Nat := s.i.toNat + offset

/-- The check of a data access to the `n` bytes at `I` (R51): the fault if the last of them is above 4095; an access of no
byte has no address to check (R166). -/
def State.dataFault (s : State) (op : Word) (n : Nat) : Option Fault :=
  if n = 0 ∨ s.dataAddr (n - 1) < Config.memSize then none
  else some (.memRangeData op s.i (max s.i.toNat Config.memSize) (s.dataAddr (n - 1)))

/-- The check of a key index (R182): a value above 15 names no key. -/
def keyFault (op : Word) (k : Byte) : Option Fault :=
  if k.toNat < 16 then none else some (.keyRange op k)

/-- The `n` bytes at `I`, lowest address first: sprite rows, top row first (R56 (a)). -/
def State.bytesAtI (s : State) (n : Nat) : List Byte :=
  (List.range n).map fun r => s.readByte (s.dataAddr r)

/-- The three decimal digits of a byte, hundreds first (R56 (b), R196). -/
def bcdDigits (b : Byte) : List Byte :=
  [BitVec.ofNat 8 (b.toNat / 100), BitVec.ofNat 8 (b.toNat / 10 % 10), BitVec.ofNat 8 (b.toNat % 10)]

/-- `V0` .. `Vx`, V0 first (R56 (c)). -/
def State.regBlock (s : State) (x : Nibble) : List Byte :=
  (List.range (x.toNat + 1)).map fun j => s.getV (BitVec.ofNat 4 j)

/-- `V[j] <- M[I + j]` for j in 0 .. x, in that order (R198). -/
def State.loadRegs (s : State) (x : Nibble) : State :=
  (List.range (x.toNat + 1)).foldl (fun t j => t.setV (BitVec.ofNat 4 j) (t.readByte (t.dataAddr j))) s

end Sys2Proof.Machine
end

