-- ==== Sys2Proof/Machine/Alu.lean ====
section
/-! DEFINITION. Families 6, 7 and 8 (42_family_6_7_immediate.md, 43_family_8_alu.md): loads of a register, add immediate,
logic, add, subtract, shift. -/

namespace Sys2Proof.Machine

/-- `6xkk` LD Vx, kk (R120). -/
def execLdVxKk (x : Nibble) (kk : Byte) (s : State) : Result := .next (s.setV x kk)

/-- `7xkk` ADD Vx, kk (R121): modulo 256, no flag. -/
def execAddVxKk (x : Nibble) (kk : Byte) (s : State) : Result := .next (s.setV x (s.getV x + kk))

/-- `8xy0` LD Vx, Vy (R130). -/
def execLdVxVy (x y : Nibble) (s : State) : Result := .next (s.setV x (s.getV y))

/-- `8xy1` OR (R131): VF is not written. -/
def execOrVxVy (x y : Nibble) (s : State) : Result := .next (s.setV x (s.getV x ||| s.getV y))

/-- `8xy2` AND (R132): VF is not written. -/
def execAndVxVy (x y : Nibble) (s : State) : Result := .next (s.setV x (s.getV x &&& s.getV y))

/-- `8xy3` XOR (R133): VF is not written. -/
def execXorVxVy (x y : Nibble) (s : State) : Result := .next (s.setV x (s.getV x ^^^ s.getV y))

/-- The common shape of `8xy4`, `8xy5`, `8xy7` (R9, R134, R135, R137): result and flag are computed from the operands as they
are before the instruction, `V[x]` is written first and VF after it. -/
def State.resultThenFlag (s : State) (x : Nibble) (result flag : Byte) : State := (s.setV x result).setVF flag

/-- `8xy4` ADD (R134). -/
def execAddVxVy (x y : Nibble) (s : State) : Result :=
  .next (s.resultThenFlag x (s.getV x + s.getV y) (carryFlag (s.getV x) (s.getV y)))

/-- `8xy5` SUB (R135): the difference, not the legacy sum (C1, D5). -/
def execSubVxVy (x y : Nibble) (s : State) : Result :=
  .next (s.resultThenFlag x (s.getV x - s.getV y) (greaterFlag (s.getV x) (s.getV y)))

/-- `8xy7` SUBN (R137). -/
def execSubnVxVy (x y : Nibble) (s : State) : Result :=
  .next (s.resultThenFlag x (s.getV y - s.getV x) (greaterFlag (s.getV y) (s.getV x)))

/-- The common shape of `8xy6` and `8xyE` (R136, R138): VF first, then the shift of `V[x]`, which under `listed` reads the
register as it now is and under `sampled` as it was (log 12). -/
def State.flagThenShift (s : State) (x : Nibble) (flag shift : Byte → Byte) : State :=
  let flagged := s.setVF (flag (s.getV x))
  match s.params.aliasOrder with
  | .listed => flagged.setV x (shift (flagged.getV x))
  | .sampled => flagged.setV x (shift (s.getV x))

/-- `8xy6` SHR Vx (R136): y is ignored. -/
def execShrVx (x _y : Nibble) (s : State) : Result := .next (s.flagThenShift x lowBitFlag fun b => b >>> 1)

/-- `8xyE` SHL Vx (R138): y is ignored. -/
def execShlVx (x _y : Nibble) (s : State) : Result := .next (s.flagThenShift x highBitFlag fun b => b <<< 1)

end Sys2Proof.Machine
end

