-- ==== Sys2Proof/Machine/Draw.lean ====
section
/-! DEFINITION. Family D (45_family_D_draw.md R166). -/

namespace Sys2Proof.Machine

/-- The display and the collision flag of a draw of `n` rows from `I` at (Vx, Vy), the coordinates read before VF is
written (R166). -/
def State.sprite (s : State) (x y n : Nibble) : Display × Bool :=
  s.disp.drawSprite (s.getV x).toNat (s.getV y).toNat (s.bytesAtI n.toNat)

/-- `Dxyn` DRW (R166): the whole range is checked before anything is read or drawn; VF is always written. -/
def execDrw (x y n : Nibble) (s : State) : Result :=
  checked (s.dataFault (encode (.drw x y n)) n.toNat)
    ((s.setDisp (s.sprite x y n).1).setVF (flagByte (s.sprite x y n).2))

end Sys2Proof.Machine
end

