-- ==== Sys2Proof/Machine/Flow.lean ====
section
/-! DEFINITION. Families 0, 1, 2 and the indexed jump of family B (40_family_0_1_2_flow.md, 44_family_A_B_C.md R151). pc
already holds the address of the next opcode (R70). -/

namespace Sys2Proof.Machine

/-- `00E0` CLS (R100). -/
def execCls (s : State) : Result := .next (s.setDisp s.disp.clear)

/-- `00EE` RET (R101): the popped entry goes to pc as it is. -/
def execRet (s : State) : Result :=
  match s.pop with
  | none => raise (.stackUnderflow (encode .ret) s.pc)
  | some (a, t) => .next (t.setPc a)

/-- `1nnn` JP (R102). -/
def execJp (nnn : Addr12) (s : State) : Result := .next (s.setPc (addrOf nnn))

/-- `2nnn` CALL (R103): push the advanced pc, then jump. -/
def execCall (nnn : Addr12) (s : State) : Result :=
  match s.push s.pc with
  | none => raise (.stackOverflow (encode (.call nnn)) s.pc)
  | some t => .next (t.setPc (addrOf nnn))

/-- `Bnnn` JP V0 (R151): the sum is not reduced to 12 bits. -/
def execJpV0 (nnn : Addr12) (s : State) : Result := .next (s.setPc (addrOf nnn + wide (s.getV 0)))

end Sys2Proof.Machine
end

