-- ==== Sys2Proof/Machine/Environment.lean ====
section
/-! DEFINITION. The contracts with the outside (60_exceptions.md R231 to R246, 70_reset_and_hazards.md R266): the tick, the
key levels and the key wait, the random byte, the renderer's read, the loader. -/

namespace Sys2Proof.Machine

/-- One timer's share of a tick: one less unless it is 0 (R231). -/
def countDown (b : Byte) : Byte := if b.toNat > 0 then b - 1 else b

/-- `Tick()` (R231). -/
def tick (s : State) : State := (s.setDt (countDown s.dt)).setSt (countDown s.st)

/-- `KeyDown(k)` (R241): the level of key `k`. -/
def State.keyDown (s : State) (k : Nibble) : Bool := s.keys[k.toNat]

/-- The levels after an event of key `k` (R241: the latest event decides). -/
def keyLevel (ks : Vector Bool 16) (k : Nibble) (down : Bool) : Vector Bool 16 := ks.set k.toNat down k.isLt

/-- `KeyWait()` (R242): the first key that goes down among what the outside still does, the levels then, and what is left
after it. Key-ups before it change levels and end no wait, nor does an unknown key (R191). No cycle, no tick and no
renderer read happens during a wait (R233, R253): one that stands before the key-down is passed over (log 3). -/
def awaitKey : List HostEvent → Vector Bool 16 → Option Nibble × Vector Bool 16 × List HostEvent
  | [], ks => (none, ks, [])
  | .keyDown k :: es, ks => (some k, keyLevel ks k true, es)
  | .keyUp k :: es, ks => awaitKey es (keyLevel ks k false)
  | .cycle :: es, ks => awaitKey es ks
  | .tick :: es, ks => awaitKey es ks
  | .unknownKey :: es, ks => awaitKey es ks
  | .pixel _ _ :: es, ks => awaitKey es ks

/-- The wait of `Fx0A` for register x (R191): `V[x] <- k` when a key goes down; otherwise the engine stays in the wait, the
whole architectural state as it is (R253). -/
def waitForKey (x : Nibble) (s : State) : State :=
  match awaitKey s.host s.keys with
  | (some k, ks, es) => (((s.setV x (k.setWidth 8)).setKeys ks).setHost es).setWaiting none
  | (none, ks, es) => ((s.setKeys ks).setHost es).setWaiting (some x)

/-- `Rand8()` (R245): the byte of this draw, the next one the random source has ready or else the free value. -/
def State.randByte (s : State) : Byte := s.rand.headD (Config.randomByte s.draws)

/-- The state after a draw: the byte is used up and the draw counted. -/
def State.drawn (s : State) : State := s.setRandom s.rand.tail (s.draws + 1)

/-- The renderer's read of one pixel (R163, R246): no side effect; off the grid, `PixelRange` goes to its caller. -/
def renderPixel (x y : Nat) (s : State) : Result :=
  match s.disp.isSet x y with
  | .ok _ => .next s
  | .error r => reportFault r s

/-- The loader (R266): the image verbatim from the load offset, or no start at all. -/
def load (image : List Byte) (s : State) : Result :=
  if image.length + Config.loadOffset ≤ Config.memSize then .next (s.storeBytes Config.loadOffset image)
  else .refused (.imageTooLarge image.length)

/-- Reset and then the loader (R260, R266): how a program comes to run. -/
def boot (image : List Byte) : Result := load image State.reset

end Sys2Proof.Machine
end

