-- ==== Sys2Proof/Machine/Misc.lean ====
section
/-! DEFINITION. The address register and random instructions of families A and C (44_family_A_B_C.md R150, R152) and family
F (47_family_F_misc.md): timers, key wait, address arithmetic, font address, BCD, register block. -/

namespace Sys2Proof.Machine

/-- `Annn` LD I, nnn (R150). -/
def execLdINnn (nnn : Addr12) (s : State) : Result := .next (s.setI (addrOf nnn))

/-- `Cxkk` RND Vx, kk (R152): one fresh byte of the random source, masked. -/
def execRnd (x : Nibble) (kk : Byte) (s : State) : Result := .next (s.drawn.setV x (s.randByte &&& kk))

/-- `Fx07` LD Vx, DT (R190). -/
def execLdVxDt (x : Nibble) (s : State) : Result := .next (s.setV x s.dt)

/-- `Fx0A` LD Vx, K (R191): completes at once if the outside delivers a key-down, else leaves the engine waiting. -/
def execLdVxK (x : Nibble) (s : State) : Result := .next (waitForKey x s)

/-- `Fx15` LD DT, Vx (R192). -/
def execLdDtVx (x : Nibble) (s : State) : Result := .next (s.setDt (s.getV x))

/-- `Fx18` LD ST, Vx (R193). -/
def execLdStVx (x : Nibble) (s : State) : Result := .next (s.setSt (s.getV x))

/-- `Fx1E` ADD I, Vx (R194): modulo 2^16, VF is not written. -/
def execAddIVx (x : Nibble) (s : State) : Result := .next (s.setI (s.i + wide (s.getV x)))

/-- `Fx29` LD F, Vx (R195): the whole byte times the glyph height. -/
def execLdFVx (x : Nibble) (s : State) : Result :=
  .next (s.setI (wide (s.getV x) * BitVec.ofNat 16 Config.glyphHeight))

/-- `Fx33` LD B, Vx (R196). -/
def execLdBVx (x : Nibble) (s : State) : Result :=
  checked (s.dataFault (encode (.ldBVx x)) 3) (s.storeBytes (s.dataAddr 0) (bcdDigits (s.getV x)))

/-- `Fx55` LD [I], Vx (R197): `I` is not changed. -/
def execLdMemVx (x : Nibble) (s : State) : Result :=
  checked (s.dataFault (encode (.ldMemVx x)) (x.toNat + 1)) (s.storeBytes (s.dataAddr 0) (s.regBlock x))

/-- `Fx65` LD Vx, [I] (R198): `I` is not changed. -/
def execLdVxMem (x : Nibble) (s : State) : Result :=
  checked (s.dataFault (encode (.ldVxMem x)) (x.toNat + 1)) (s.loadRegs x)

end Sys2Proof.Machine
end

