-- ==== Sys2Proof/Machine/Skip.lean ====
section
/-! DEFINITION. The skips: families 3, 4, 5, 9 (41_family_3_4_5_9_skip.md) and E (46_family_E_keys.md). -/

namespace Sys2Proof.Machine

/-- `3xkk` SE Vx, kk (R111). -/
def execSeVxKk (x : Nibble) (kk : Byte) (s : State) : Result := .next (s.skipIf (s.getV x == kk))

/-- `4xkk` SNE Vx, kk (R112). -/
def execSneVxKk (x : Nibble) (kk : Byte) (s : State) : Result := .next (s.skipIf (s.getV x != kk))

/-- `5xy0` SE Vx, Vy (R113). -/
def execSeVxVy (x y : Nibble) (s : State) : Result := .next (s.skipIf (s.getV x == s.getV y))

/-- `9xy0` SNE Vx, Vy (R114). -/
def execSneVxVy (x y : Nibble) (s : State) : Result := .next (s.skipIf (s.getV x != s.getV y))

/-- The level of the key that the low bits of a checked index name (R182, R241). -/
def State.keyOf (s : State) (k : Byte) : Bool := s.keyDown (k.setWidth 4)

/-- `Ex9E` SKP Vx (R180). -/
def execSkp (x : Nibble) (s : State) : Result :=
  checked (keyFault (encode (.skp x)) (s.getV x)) (s.skipIf (s.keyOf (s.getV x)))

/-- `ExA1` SKNP Vx (R181). -/
def execSknp (x : Nibble) (s : State) : Result :=
  checked (keyFault (encode (.sknp x)) (s.getV x)) (s.skipIf (!s.keyOf (s.getV x)))

end Sys2Proof.Machine
end

