-- ==== Sys2Proof/Machine/Cycle.lean ====
section
/-! DEFINITION. Execute of a raw opcode, the whole cycle (30_encoding.md R70, R71) and which agent moves next
(00_scope.md R11, 60_exceptions.md R232, R233). -/

namespace Sys2Proof.Machine

/-- `Execute(op)` (R71, R75): total on the 65536 words. -/
def execute (op : Word) (s : State) : Result :=
  match decodeWord op with
  | some i => exec i s
  | none => unrecognised op s

/-- `Cycle()` (R70): fetch, advance, execute, and the driver's answer to a fault. A fetch fault finds pc as it was (R223),
a fault of execute finds it advanced and nothing else changed (R224). -/
def cycle (s : State) : Result :=
  match fetch s with
  | .error r => reportFault r s
  | .ok op =>
    match execute op s.advance with
    | .next t => .next t
    | .fault r => reportFault r s.advance
    | .refused r => .refused r

/-- One thing the outside does while the engine is not waiting (R231, R241, R246). A key event only updates a level: it is
not queued for a later `Fx0A` (R243). -/
def hostMove (e : HostEvent) (s : State) : Result :=
  match e with
  | .cycle => cycle s
  | .tick => .next (tick s)
  | .keyDown k => .next (s.setKeys (keyLevel s.keys k true))
  | .keyUp k => .next (s.setKeys (keyLevel s.keys k false))
  | .unknownKey => .next s
  | .pixel x y => renderPixel x y s

/-- The next move of the whole system: a pending `Fx0A` goes on waiting (R253); otherwise the outside's next event, or a
cycle when it has none left (log 2). -/
def turn (s : State) : Result :=
  match s.waiting with
  | some x => .next (waitForKey x s)
  | none =>
    match s.host with
    | [] => cycle s
    | e :: es => hostMove e (s.setHost es)

/-- Where a program's next opcode stands: `pc`, or the load offset if no opcode can be fetched at `pc` (log 15). -/
def fetchPlace (s : State) : Word :=
  if s.pc.toNat + 1 < Config.memSize then s.pc else BitVec.ofNat 16 Config.loadOffset

/-- `s` with an opcode stored where the next cycle fetches, and nothing due before that cycle. -/
def placeOpcode (s : State) (op : Word) : State :=
  (((s.storeBytes (fetchPlace s).toNat (bytesOfWord op)).setPc (fetchPlace s)).setHost []).setWaiting none

end Sys2Proof.Machine
end

