-- ==== Sys2Proof/Machine/Step.lean ====
section
/-! DEFINITION. One step of the machine: a next state, a fault or a refusal (00_scope.md R10). -/

namespace Sys2Proof.Machine

/-- One step: one whole cycle (30_encoding.md R70), one move of the outside (R11), or the wait of a pending `Fx0A`. -/
def step (s : State) : Host.Outcome State Fault Refusal := turn s

/-- `s` with the opcode whose bits are `w` stored where `step` fetches its next instruction, so that the very next step is
the cycle that runs it. Every instruction is one word of 16 bits, so `nbits` adds nothing to `w` (R72). -/
def State.withFetchWord (s : State) (_nbits w : Nat) : State := placeOpcode s (BitVec.ofNat 16 w)

end Sys2Proof.Machine
end

