-- ==== Sys2Proof/Safety.lean ====
section
/-! DEFINITION. The terms claims are stated in: what an instruction may touch and what it leaves unchanged, the invariant
of the machine, what counts as a finished and a successful run (70_reset_and_hazards.md R270, 60_exceptions.md R225). -/

namespace Sys2Proof.Machine

/-- What a move may write, everything else being unchanged: the listed registers; `I`, `pc`, `DT`, `ST`, the stack with its
count, the display, when the Bool is true; `storeLen` bytes of memory from address `storeAt`; the random source (`rand` and
`draws`); the outside's side (`host`, `keys`, `waiting`). -/
structure Footprint where
  regs : List Nibble := []
  i : Bool := false
  pc : Bool := false
  dt : Bool := false
  st : Bool := false
  stack : Bool := false
  disp : Bool := false
  storeAt : Nat := 0
  storeLen : Nat := 0
  random : Bool := false
  outside : Bool := false

/-- `t` agrees with `s` outside the footprint. The report list and the parameters are in no footprint. -/
structure Unchanged (f : Footprint) (s t : State) : Prop where
  regs : ∀ y, y ∉ f.regs → t.getV y = s.getV y
  i : f.i = false → t.i = s.i
  pc : f.pc = false → t.pc = s.pc
  dt : f.dt = false → t.dt = s.dt
  st : f.st = false → t.st = s.st
  stack : f.stack = false → t.stack = s.stack
  sp : f.stack = false → t.sp = s.sp
  disp : f.disp = false → t.disp = s.disp
  mem : ∀ a, ¬ (f.storeAt ≤ a ∧ a < f.storeAt + f.storeLen) → t.readByte a = s.readByte a
  rand : f.random = false → t.rand = s.rand
  draws : f.random = false → t.draws = s.draws
  waiting : f.outside = false → t.waiting = s.waiting
  keys : f.outside = false → t.keys = s.keys
  host : f.outside = false → t.host = s.host
  faults : t.faults = s.faults
  params : t.params = s.params

/-- The columns an instruction writes in the access matrix (10_state.md R41); `DRW`, `LD B` and `LD [I]` use the address the
meaning uses. The random source and the outside's side stand for the column "host input". -/
def footprint (s : State) : Instr → Footprint
  | .cls => { disp := true }
  | .ret => { pc := true, stack := true }
  | .jp _ => { pc := true }
  | .call _ => { pc := true, stack := true }
  | .seVxKk _ _ => { pc := true }
  | .sneVxKk _ _ => { pc := true }
  | .seVxVy _ _ => { pc := true }
  | .ldVxKk x _ => { regs := [x] }
  | .addVxKk x _ => { regs := [x] }
  | .ldVxVy x _ => { regs := [x] }
  | .orVxVy x _ => { regs := [x] }
  | .andVxVy x _ => { regs := [x] }
  | .xorVxVy x _ => { regs := [x] }
  | .addVxVy x _ => { regs := [x, 0xF] }
  | .subVxVy x _ => { regs := [x, 0xF] }
  | .shrVx x _ => { regs := [x, 0xF] }
  | .subnVxVy x _ => { regs := [x, 0xF] }
  | .shlVx x _ => { regs := [x, 0xF] }
  | .sneVxVy _ _ => { pc := true }
  | .ldINnn _ => { i := true }
  | .jpV0 _ => { pc := true }
  | .rnd x _ => { regs := [x], random := true }
  | .drw _ _ _ => { regs := [0xF], disp := true }
  | .skp _ => { pc := true }
  | .sknp _ => { pc := true }
  | .ldVxDt x => { regs := [x] }
  | .ldVxK x => { regs := [x], outside := true }
  | .ldDtVx _ => { dt := true }
  | .ldStVx _ => { st := true }
  | .addIVx _ => { i := true }
  | .ldFVx _ => { i := true }
  | .ldBVx _ => { storeAt := s.dataAddr 0, storeLen := 3 }
  | .ldMemVx x => { storeAt := s.dataAddr 0, storeLen := x.toNat + 1 }
  | .ldVxMem x => { regs := (List.range (x.toNat + 1)).map (BitVec.ofNat 4) }

/-- The invariant of the machine: memory in its canonical form; `pc` and every valid stack entry within the bounds R24
gives for a run (a loaded `nnn + V0` is at most 0x10FE, a pushed address at most 0x1000), so that the modulo 2^16 of pc
arithmetic is never exercised. -/
abbrev State.Inv (s : State) : Prop :=
  s.mem.wf ∧ s.pc.toNat ≤ 0x10FE ∧ ∀ j : Fin 16, j.val < s.sp.val → s.stack[j].toNat ≤ 0x1000

/-- The program has finished (R270): the opcode at pc is a jump to pc. The spec's own definition; it does not say that
anything stops. -/
def State.Finished (s : State) : Prop :=
  s.pc.toNat + 1 < Config.memSize ∧ fetch s = .ok (encode (.jp (s.pc.setWidth 12)))

/-- A successful end: finished, not in a key wait (R253), and no fault ever reported (R225: "a faulted run must never count
as a successful end"). -/
def State.SuccessfulEnd (s : State) : Prop := s.Finished ∧ s.waiting = none ∧ s.faults = []

/-- A safe step: it answers a next state and reports no fault on the way. -/
def SafeStep (s : State) : Prop := ∃ t, step s = .next t ∧ t.faults = s.faults

end Sys2Proof.Machine
end

