-- ==== Sys2Proof/WellFormed.lean ====
section
/-! DEFINITION. What is well formed: an instruction (always: its operand types are the fields' widths, R72, R73), a word
as an opcode (it matches a row of the opcode map, R76), and a program image as the loader takes it (R266). The opcode map
stands here as data, independent of the decoder, so that the two can be compared. -/

namespace Sys2Proof

/-- A row of the opcode map (R76): `op` is the row's instruction exactly when `op &&& mask = value`. -/
structure OpcodeRow where
  mask : Word
  value : Word
  deriving DecidableEq, Repr

def OpcodeRow.matches (r : OpcodeRow) (op : Word) : Bool := op &&& r.mask == r.value

/-- The 34 rows of R76's table in its order (columns `mask` and `match`). -/
def opcodeMap : List OpcodeRow :=
  [⟨0xFFFF, 0x00E0⟩, ⟨0xFFFF, 0x00EE⟩, ⟨0xF000, 0x1000⟩, ⟨0xF000, 0x2000⟩, ⟨0xF000, 0x3000⟩, ⟨0xF000, 0x4000⟩] ++
  [⟨0xF00F, 0x5000⟩, ⟨0xF000, 0x6000⟩, ⟨0xF000, 0x7000⟩, ⟨0xF00F, 0x8000⟩, ⟨0xF00F, 0x8001⟩, ⟨0xF00F, 0x8002⟩] ++
  [⟨0xF00F, 0x8003⟩, ⟨0xF00F, 0x8004⟩, ⟨0xF00F, 0x8005⟩, ⟨0xF00F, 0x8006⟩, ⟨0xF00F, 0x8007⟩, ⟨0xF00F, 0x800E⟩] ++
  [⟨0xF00F, 0x9000⟩, ⟨0xF000, 0xA000⟩, ⟨0xF000, 0xB000⟩, ⟨0xF000, 0xC000⟩, ⟨0xF000, 0xD000⟩] ++
  [⟨0xF0FF, 0xE09E⟩, ⟨0xF0FF, 0xE0A1⟩, ⟨0xF0FF, 0xF007⟩, ⟨0xF0FF, 0xF00A⟩, ⟨0xF0FF, 0xF015⟩, ⟨0xF0FF, 0xF018⟩] ++
  [⟨0xF0FF, 0xF01E⟩, ⟨0xF0FF, 0xF029⟩, ⟨0xF0FF, 0xF033⟩, ⟨0xF0FF, 0xF055⟩, ⟨0xF0FF, 0xF065⟩]

/-- The place of an instruction's row in `opcodeMap`, counted from 0 (R76's number less one). -/
def Instr.rowNumber : Instr → Nat
  | .cls => 0
  | .ret => 1
  | .jp _ => 2
  | .call _ => 3
  | .seVxKk _ _ => 4
  | .sneVxKk _ _ => 5
  | .seVxVy _ _ => 6
  | .ldVxKk _ _ => 7
  | .addVxKk _ _ => 8
  | .ldVxVy _ _ => 9
  | .orVxVy _ _ => 10
  | .andVxVy _ _ => 11
  | .xorVxVy _ _ => 12
  | .addVxVy _ _ => 13
  | .subVxVy _ _ => 14
  | .shrVx _ _ => 15
  | .subnVxVy _ _ => 16
  | .shlVx _ _ => 17
  | .sneVxVy _ _ => 18
  | .ldINnn _ => 19
  | .jpV0 _ => 20
  | .rnd _ _ => 21
  | .drw _ _ _ => 22
  | .skp _ => 23
  | .sknp _ => 24
  | .ldVxDt _ => 25
  | .ldVxK _ => 26
  | .ldDtVx _ => 27
  | .ldStVx _ => 28
  | .addIVx _ => 29
  | .ldFVx _ => 30
  | .ldBVx _ => 31
  | .ldMemVx _ => 32
  | .ldVxMem _ => 33

/-- Every term of `Instr` is well formed: "all sixteen values are legal in every instruction that has the field" (R73), and
no field has a reserved value (R77). The operand types leave nothing to check. -/
def Instr.wellFormed (_ : Instr) : Bool := true

/-- An opcode is well formed when it matches a row of the opcode map (R76); the others are the unrecognised ones (R78). -/
def opcodeWellFormed (op : Word) : Bool := opcodeMap.any fun r => r.matches op

/-- A program image is well formed when it fits between the load offset and the end of memory (R266). -/
def imageWellFormed (image : List Byte) : Bool := image.length + Config.loadOffset ≤ Config.memSize

end Sys2Proof
end

