-- ==== Sys2Proof/Certificates/Slice0/Obligations.lean ====
section
/-! DEFINITION. The statements for the provers. The rules `R<n>` are those of spec/. A statement about an instruction is
about `exec`, at a state whose pc has already been advanced past the instruction (R70); `Obligations.StepRunsDecodedInstruction`
ties it to a step. -/

open Sys2Proof Sys2Proof.Machine

namespace Sys2Proof.Claims

/-- The one word that decodes to `i` is `w`, written out with its fields at their places (R72, R74, R76). -/
def DecodesFrom (i : Instr) (w : Word) : Prop := ∀ op : Word, decodeWord op = some i ↔ op = w

/-- The outside's next move is a cycle of the driver, after which it still does `es`. -/
def CycleIsDue (s : State) (es : List HostEvent) : Prop :=
  s.waiting = none ∧ (s.host = [] ∧ es = [] ∨ s.host = .cycle :: es)

/-- No key goes down in `es`. -/
def NoKeyDown (es : List HostEvent) : Prop := ∀ k, HostEvent.keyDown k ∉ es

/-- The level of key `k` that the latest of the events leaves, `before` if none is of that key (R241). -/
def latestLevel (k : Nibble) (before : Bool) : List HostEvent → Bool
  | [] => before
  | .keyDown j :: es => latestLevel k (if j = k then true else before) es
  | .keyUp j :: es => latestLevel k (if j = k then false else before) es
  | _ :: es => latestLevel k before es

/-- An event of the keyboard. -/
def isKeyEvent : HostEvent → Bool
  | .keyDown _ => true
  | .keyUp _ => true
  | .unknownKey => true
  | _ => false

/-- Sprite bit (r, c) is 1 and its pixel, wrapped, is (px, py) (R164, R167). -/
def SpriteBitAt (rows : List Byte) (x y : Nat) (px : Fin 64) (py : Fin 32) : Prop :=
  ∃ r c, ∃ row, rows[r]? = some row ∧ c < 8 ∧ row.getLsbD (7 - c) = true ∧ px.val = (x + c) % 64 ∧ py.val = (y + r) % 32

/-- The fault each instruction raises and when, with what its row of R220 says is reported (R220, R221). -/
def faultOf (s : State) : Instr → Option Fault
  | .ret => if s.sp.val = 0 then some (.stackUnderflow 0x00EE s.pc) else none
  | .call nnn => if s.sp.val = 16 then some (.stackOverflow (0x2#4 ++ nnn) s.pc) else none
  | .drw x y n =>
    if 0 < n.toNat ∧ 4095 < s.i.toNat + n.toNat - 1 then
      some (.memRangeData (0xD#4 ++ x ++ y ++ n) s.i (max s.i.toNat 4096) (s.i.toNat + n.toNat - 1))
    else none
  | .skp x => if 15 < (s.getV x).toNat then some (.keyRange (0xE#4 ++ x ++ 0x9E#8) (s.getV x)) else none
  | .sknp x => if 15 < (s.getV x).toNat then some (.keyRange (0xE#4 ++ x ++ 0xA1#8) (s.getV x)) else none
  | .ldBVx x =>
    if 4095 < s.i.toNat + 2 then
      some (.memRangeData (0xF#4 ++ x ++ 0x33#8) s.i (max s.i.toNat 4096) (s.i.toNat + 2))
    else none
  | .ldMemVx x =>
    if 4095 < s.i.toNat + x.toNat then
      some (.memRangeData (0xF#4 ++ x ++ 0x55#8) s.i (max s.i.toNat 4096) (s.i.toNat + x.toNat))
    else none
  | .ldVxMem x =>
    if 4095 < s.i.toNat + x.toNat then
      some (.memRangeData (0xF#4 ++ x ++ 0x65#8) s.i (max s.i.toNat 4096) (s.i.toNat + x.toNat))
    else none
  | _ => none

/-- The faults that are not raised by execute, so that pc has not been advanced: the fetch's and a renderer's. -/
def beforeAdvance : Fault → Bool
  | .memRangeFetch _ => true
  | .pixelRange _ _ => true
  | _ => false

/-- `s` with the driver going on after a fault (`ON_FAULT = continue`). -/
def carryingOn (s : State) : State := { s with params := { s.params with onFault := .continueRun } }

/-- The byte at `a` once the digits of `Vx` stand at `I`, `I + 1`, `I + 2` (R196). -/
def byteAfterBcd (s : State) (x : Nibble) (a : Nat) : Nat :=
  if a = s.dataAddr 0 then (s.getV x).toNat / 100
  else if a = s.dataAddr 1 then (s.getV x).toNat / 10 % 10
  else if a = s.dataAddr 2 then (s.getV x).toNat % 10
  else (s.readByte a).toNat

/-- The byte at `a` once `V0` .. `Vx` stand at `I` .. `I + x` (R197). -/
def byteAfterBlock (s : State) (x : Nibble) (a : Nat) : Nat :=
  if s.dataAddr 0 ≤ a ∧ a ≤ s.dataAddr x.toNat then (s.getV (BitVec.ofNat 4 (a - s.dataAddr 0))).toNat
  else (s.readByte a).toNat

end Sys2Proof.Claims

open Sys2Proof.Claims

/-! ## Reset and the loader -/

/-- R40: every register, timer, stack entry and pixel is 0, pc is the load offset, memory above the font is 0. -/
def Obligations.ResetStateHoldsSpecValues : Prop :=
  let s := State.reset
  (∀ x, s.getV x = 0) ∧ s.i = 0 ∧ s.pc = 0x200 ∧ s.dt = 0 ∧ s.st = 0 ∧ s.sp = 0 ∧
  (∀ j : Fin 16, s.stack[j] = 0) ∧ (∀ px py, s.disp.isOn px py = false) ∧
  (∀ a, 80 ≤ a → a < 4096 → s.readByte a = 0)

/-- The table of R31. The spec marks the bytes as general knowledge (D11), so this is log 9, PRESUMED. -/
def Obligations.ResetMemoryHoldsFont : Prop :=
  (List.range 80).map State.reset.readByte =
    ([[0xF0, 0x90, 0x90, 0x90, 0xF0], [0x20, 0x60, 0x20, 0x20, 0x70], [0xF0, 0x10, 0xF0, 0x80, 0xF0],
      [0xF0, 0x10, 0xF0, 0x10, 0xF0], [0x90, 0x90, 0xF0, 0x10, 0x10], [0xF0, 0x80, 0xF0, 0x10, 0xF0],
      [0xF0, 0x80, 0xF0, 0x90, 0xF0], [0xF0, 0x10, 0x20, 0x40, 0x40], [0xF0, 0x90, 0xF0, 0x90, 0xF0],
      [0xF0, 0x90, 0xF0, 0x10, 0xF0], [0xF0, 0x90, 0xF0, 0x90, 0x90], [0xE0, 0x90, 0xE0, 0x90, 0xE0],
      [0xF0, 0x80, 0x80, 0x80, 0xF0], [0xE0, 0x90, 0x90, 0x90, 0xE0], [0xF0, 0x80, 0xF0, 0x80, 0xF0],
      [0xF0, 0x80, 0xF0, 0x80, 0x80]] : List (List Byte)).flatten

/-- R266: an image of at most 3584 bytes stands verbatim from 0x200 and nothing else changes; a larger one is refused
(the form of the refusal is log 16). -/
def Obligations.LoaderPlacesImageVerbatim : Prop :=
  ∀ (image : List Byte) (s : State),
    (image.length ≤ 3584 → ∃ t, load image s = .next t ∧
      (∀ j, (h : j < image.length) → t.readByte (0x200 + j) = image[j]) ∧
      Unchanged { storeAt := 0x200, storeLen := image.length } s t) ∧
    (3584 < image.length → load image s = .refused (.imageTooLarge image.length))

/-! ## Fetch, decode, the cycle -/

/-- R52, R53: the two bytes at pc, the first one high, when pc is at most 4094; otherwise the fetch fault with pc. -/
def Obligations.FetchReadsTwoBytesBigEndian : Prop :=
  ∀ s : State,
    (s.pc.toNat ≤ 4094 → ∃ op, fetch s = .ok op ∧
      op.toNat = (s.readByte s.pc.toNat).toNat * 256 + (s.readByte (s.pc.toNat + 1)).toNat) ∧
    (4094 < s.pc.toNat → fetch s = .error (.memRangeFetch s.pc))

/-- R70: when a cycle is due and the bytes at pc decode to `i`, the step is `exec i` at the state whose pc is advanced by 2
(modulo 2^16) and whose due event is used up; a fault of it goes to the driver (R225). Which move is due and the list of reports are the model's (log 2,
log 7). -/
def Obligations.StepRunsDecodedInstruction : Prop :=
  ∀ (s : State) (es : List HostEvent) (i : Instr),
    CycleIsDue s es → s.pc.toNat ≤ 4094 →
    decode [s.readByte s.pc.toNat, s.readByte (s.pc.toNat + 1)] = .ok (i, []) →
    ∃ s1, s1 = { s with pc := s.pc + 2, host := es } ∧
      (∀ t, exec i s1 = .next t → step s = .next t) ∧
      (∀ r, exec i s1 = .refused r → step s = .refused r) ∧
      (∀ r, exec i s1 = .fault r → s.params.onFault = .haltRun → step s = .fault r) ∧
      (∀ r, exec i s1 = .fault r → s.params.onFault = .continueRun →
        step s = .next { s1 with faults := r :: s.faults })

/-- R223 and R225: a fetch out of range faults before the advance; under `continue` nothing changes but the
report (the list of reports and the due event are the model's, log 7, log 2). -/
def Obligations.FetchFaultLeavesPc : Prop :=
  ∀ (s : State) (es : List HostEvent), CycleIsDue s es → 4094 < s.pc.toNat →
    (s.params.onFault = .haltRun → step s = .fault (.memRangeFetch s.pc)) ∧
    (s.params.onFault = .continueRun →
      step s = .next { s with host := es, faults := .memRangeFetch s.pc :: s.faults })

/-- R79: an unrecognised opcode is the fault `IllegalOpcode` under `report` and a no-op under `ignore`. -/
def Obligations.UnrecognisedOpcodeFollowsPolicy : Prop :=
  ∀ (op : Word) (s : State), decodeWord op = none →
    (s.params.illegalPolicy = .report → execute op s = .fault (.illegalOpcode op s.pc)) ∧
    (s.params.illegalPolicy = .ignore → execute op s = .next s)

/-- R79 in a step: when a cycle is due and the bytes at pc are an unrecognised opcode, the step leaves pc advanced by 2 and
everything else as it was under `ignore`, and under `report` hands `IllegalOpcode` to the driver (R225). Which move is due and
the list of reports are the model's (log 2, log 7). -/
def Obligations.StepOnUnrecognisedOpcodeFollowsPolicy : Prop :=
  ∀ (s : State) (es : List HostEvent) (op : Word),
    CycleIsDue s es → s.pc.toNat ≤ 4094 →
    decode [s.readByte s.pc.toNat, s.readByte (s.pc.toNat + 1)] = .error (.unrecognised op) →
    (s.params.illegalPolicy = .ignore → step s = .next { s with pc := s.pc + 2, host := es }) ∧
    (s.params.illegalPolicy = .report → s.params.onFault = .haltRun → step s = .fault (.illegalOpcode op (s.pc + 2))) ∧
    (s.params.illegalPolicy = .report → s.params.onFault = .continueRun →
      step s = .next { s with pc := s.pc + 2, host := es, faults := .illegalOpcode op (s.pc + 2) :: s.faults })

/-- R223, R224 over every kind of fault: where the driver halts with a fault, a driver that goes on finds the state as it
was, with pc advanced by 2 unless the fault is the fetch's or a renderer's (log 7, log 8). -/
def Obligations.FaultsArePrecise : Prop :=
  ∀ (s : State) (r : Fault), s.params.onFault = .haltRun → step s = .fault r →
    ∃ t, step (carryingOn s) = .next t ∧
      t = { carryingOn s with
            pc := if beforeAdvance r then s.pc else s.pc + 2,
            host := s.host.tail, faults := r :: s.faults }

/-- R220, R221: which instruction faults, when, and with what; every other form of every instruction completes. -/
def Obligations.InstructionsFaultExactlyWhenListed : Prop :=
  ∀ (i : Instr) (s : State),
    (∀ r, faultOf s i = some r → exec i s = .fault r) ∧
    (faultOf s i = none → ∃ t, exec i s = .next t)

/-- The codes of R220. -/
def Obligations.FaultCodesAreTheTable : Prop :=
  (∀ op i f l, (Fault.memRangeData op i f l).code = 0x11) ∧ (∀ pc, (Fault.memRangeFetch pc).code = 0x12) ∧
  (∀ x y, (Fault.pixelRange x y).code = 0x13) ∧ (∀ op v, (Fault.keyRange op v).code = 0x14) ∧
  (∀ op pc, (Fault.stackOverflow op pc).code = 0x21) ∧ (∀ op pc, (Fault.stackUnderflow op pc).code = 0x22) ∧
  (∀ op pc, (Fault.illegalOpcode op pc).code = 0x30)

/-- R10: a step has a next state or a fault; no word and no state is left without a meaning. -/
def Obligations.StepNeverRefuses : Prop := ∀ (s : State) (r : Refusal), step s ≠ .refused r

/-- The model's own placing of an opcode (log 15): the very next step runs it. -/
def Obligations.PlacedInstructionRunsNext : Prop :=
  ∀ (s t : State) (i : Instr),
    exec i (s.withFetchWord 16 (encode i).toNat).advance = .next t →
    step (s.withFetchWord 16 (encode i).toNat) = .next t

/-! ## Encoding -/

/-- Every instruction, with every operand, is read back from its opcode and from its bytes, whatever follows them. -/
def Obligations.DecodeOfEncodeIsInstruction : Prop :=
  ∀ (i : Instr) (rest : List Byte), i.wellFormed = true →
    decodeWord (encode i) = some i ∧ decode (encodeBytes i ++ rest) = .ok (i, rest)

/-- Every bit of a recognised opcode is fixed or an operand's (R77): the encoder gives the opcode back. -/
def Obligations.EncodeOfDecodeIsOpcode : Prop := ∀ (op : Word) (i : Instr), decodeWord op = some i → encode i = op

/-- R76: an opcode is a row's instruction exactly when its bits under the row's mask are the row's. -/
def Obligations.DecoderFollowsOpcodeMap : Prop :=
  ∀ (op : Word) (n : Nat) (row : OpcodeRow), opcodeMap[n]? = some row →
    ((∃ i, decodeWord op = some i ∧ i.rowNumber = n) ↔ op &&& row.mask = row.value)

/-- R78: the unrecognised opcodes, group by group. -/
def Obligations.UnrecognisedOpcodesAreTheGroups : Prop :=
  ∀ op : Word, decodeWord op = none ↔
    let h := op.toNat / 4096
    let n := op.toNat % 16
    let kk := op.toNat % 256
    (h = 0 ∧ op ≠ 0x00E0 ∧ op ≠ 0x00EE) ∨ (h = 5 ∧ n ≠ 0) ∨ (h = 8 ∧ n ∈ [8, 9, 0xA, 0xB, 0xC, 0xD, 0xF]) ∨
    (h = 9 ∧ n ≠ 0) ∨ (h = 0xE ∧ kk ∉ [0x9E, 0xA1]) ∨
    (h = 0xF ∧ kk ∉ [0x07, 0x0A, 0x15, 0x18, 0x1E, 0x29, 0x33, 0x55, 0x65])

/-- Words written out bit by bit from the rows of R76, and three that are no instruction. -/
def Obligations.SampleOpcodesDecode : Prop :=
  decodeWord 0b0000000011100000 = some .cls ∧ decodeWord 0b0010001000001010 = some (.call 0x20A) ∧
  decodeWord 0b0110000000001010 = some (.ldVxKk 0 0x0A) ∧ decodeWord 0b1000001100100101 = some (.subVxVy 3 2) ∧
  decodeWord 0b1101000100100101 = some (.drw 1 2 5) ∧ decodeWord 0b1110010010100001 = some (.sknp 4) ∧
  decodeWord 0b1111001001010101 = some (.ldMemVx 2) ∧ decodeWord 0b1111001001100101 = some (.ldVxMem 2) ∧
  decodeWord 0x0000 = none ∧ decodeWord 0x5121 = none ∧ decodeWord 0x812F = none

/-! ## Families 0, 1, 2 and the indexed jump -/

/-- R100. -/
def Obligations.ClsTurnsEveryPixelOff : Prop :=
  ∀ s : State, DecodesFrom .cls 0x00E0 ∧
    ∃ t, exec .cls s = .next t ∧ (∀ px py, t.disp.isOn px py = false) ∧ Unchanged { disp := true } s t

/-- R101. -/
def Obligations.RetPopsIntoPc : Prop :=
  ∀ s : State, DecodesFrom .ret 0x00EE ∧
    (0 < s.sp.val → ∃ t, exec .ret s = .next t ∧ t.sp.val = s.sp.val - 1 ∧
      (∀ j : Fin 16, j.val = s.sp.val - 1 → t.pc = s.stack[j]) ∧ t.stack = s.stack ∧
      Unchanged { pc := true, stack := true } s t) ∧
    (s.sp.val = 0 → exec .ret s = .fault (.stackUnderflow 0x00EE s.pc))

/-- R102. -/
def Obligations.JpJumpsToNnn : Prop :=
  ∀ (nnn : Addr12) (s : State), DecodesFrom (.jp nnn) (0x1#4 ++ nnn) ∧
    ∃ t, exec (.jp nnn) s = .next t ∧ t.pc.toNat = nnn.toNat ∧ Unchanged { pc := true } s t

/-- R103: the pushed value is the advanced pc. -/
def Obligations.CallPushesAdvancedPc : Prop :=
  ∀ (nnn : Addr12) (s : State), DecodesFrom (.call nnn) (0x2#4 ++ nnn) ∧
    (s.sp.val < 16 → ∃ t, exec (.call nnn) s = .next t ∧ t.sp.val = s.sp.val + 1 ∧ t.pc.toNat = nnn.toNat ∧
      (∀ j : Fin 16, t.stack[j] = if j.val = s.sp.val then s.pc else s.stack[j]) ∧
      Unchanged { pc := true, stack := true } s t) ∧
    (s.sp.val = 16 → exec (.call nnn) s = .fault (.stackOverflow (0x2#4 ++ nnn) s.pc))

/-- R104, the source's round trip: a call at `a` whose target holds `00EE`, both run as cycles, leaves pc at `a + 2` and the
stack count as it was, the entry still holding `a + 2`. -/
def Obligations.CallThenReturnComesBack : Prop :=
  ∀ (s : State) (nnn : Addr12), s.waiting = none → s.host = [] → s.pc.toNat ≤ 4094 → s.sp.val < 16 →
    fetch s = .ok (0x2#4 ++ nnn) → fetch { s with pc := nnn.setWidth 16 } = .ok 0x00EE →
    ∃ t, core.run 2 s = .next t ∧ t.pc = s.pc + 2 ∧ t.sp = s.sp ∧
      (∀ j : Fin 16, j.val = s.sp.val → t.stack[j] = s.pc + 2) ∧
      (∀ j : Fin 16, j.val ≠ s.sp.val → t.stack[j] = s.stack[j]) ∧ Unchanged { pc := true, stack := true } s t

/-- R151: the sum is not reduced to 12 bits. -/
def Obligations.JpV0AddsV0 : Prop :=
  ∀ (nnn : Addr12) (s : State), DecodesFrom (.jpV0 nnn) (0xB#4 ++ nnn) ∧
    ∃ t, exec (.jpV0 nnn) s = .next t ∧ t.pc.toNat = nnn.toNat + (s.getV 0).toNat ∧ Unchanged { pc := true } s t

/-! ## Skips -/

/-- R110, R111, R112. -/
def Obligations.ImmediateSkipsCompareVxWithKk : Prop :=
  ∀ (x : Nibble) (kk : Byte) (s : State),
    DecodesFrom (.seVxKk x kk) (0x3#4 ++ x ++ kk) ∧ DecodesFrom (.sneVxKk x kk) (0x4#4 ++ x ++ kk) ∧
    (∃ t, exec (.seVxKk x kk) s = .next t ∧
      t.pc.toNat = (s.pc.toNat + if s.getV x = kk then 2 else 0) % 65536 ∧ Unchanged { pc := true } s t) ∧
    (∃ t, exec (.sneVxKk x kk) s = .next t ∧
      t.pc.toNat = (s.pc.toNat + if s.getV x ≠ kk then 2 else 0) % 65536 ∧ Unchanged { pc := true } s t)

/-- R110, R113, R114. -/
def Obligations.RegisterSkipsCompareVxWithVy : Prop :=
  ∀ (x y : Nibble) (s : State),
    DecodesFrom (.seVxVy x y) (0x5#4 ++ x ++ y ++ 0x0#4) ∧ DecodesFrom (.sneVxVy x y) (0x9#4 ++ x ++ y ++ 0x0#4) ∧
    (∃ t, exec (.seVxVy x y) s = .next t ∧
      t.pc.toNat = (s.pc.toNat + if s.getV x = s.getV y then 2 else 0) % 65536 ∧ Unchanged { pc := true } s t) ∧
    (∃ t, exec (.sneVxVy x y) s = .next t ∧
      t.pc.toNat = (s.pc.toNat + if s.getV x ≠ s.getV y then 2 else 0) % 65536 ∧ Unchanged { pc := true } s t)

/-- R180, R181, R182: a key index of 0 to 15 decides by that key's level; a larger one is the fault `KeyRange`. -/
def Obligations.KeySkipsReadTheNamedKey : Prop :=
  ∀ (x : Nibble) (s : State),
    DecodesFrom (.skp x) (0xE#4 ++ x ++ 0x9E#8) ∧ DecodesFrom (.sknp x) (0xE#4 ++ x ++ 0xA1#8) ∧
    (∀ k : Fin 16, (s.getV x).toNat = k.val →
      (∃ t, exec (.skp x) s = .next t ∧
        t.pc.toNat = (s.pc.toNat + if s.keys[k] = true then 2 else 0) % 65536 ∧ Unchanged { pc := true } s t) ∧
      (∃ t, exec (.sknp x) s = .next t ∧
        t.pc.toNat = (s.pc.toNat + if s.keys[k] = true then 0 else 2) % 65536 ∧ Unchanged { pc := true } s t)) ∧
    (15 < (s.getV x).toNat →
      exec (.skp x) s = .fault (.keyRange (0xE#4 ++ x ++ 0x9E#8) (s.getV x)) ∧
      exec (.sknp x) s = .fault (.keyRange (0xE#4 ++ x ++ 0xA1#8) (s.getV x)))

/-! ## Families 6, 7, 8 -/

/-- R120. -/
def Obligations.LdVxKkLoadsImmediate : Prop :=
  ∀ (x : Nibble) (kk : Byte) (s : State), DecodesFrom (.ldVxKk x kk) (0x6#4 ++ x ++ kk) ∧
    ∃ t, exec (.ldVxKk x kk) s = .next t ∧ t.getV x = kk ∧ Unchanged { regs := [x] } s t

/-- R121: modulo 256, VF written only as the destination. -/
def Obligations.AddVxKkWrapsWithoutFlag : Prop :=
  ∀ (x : Nibble) (kk : Byte) (s : State), DecodesFrom (.addVxKk x kk) (0x7#4 ++ x ++ kk) ∧
    ∃ t, exec (.addVxKk x kk) s = .next t ∧ (t.getV x).toNat = ((s.getV x).toNat + kk.toNat) % 256 ∧
      Unchanged { regs := [x] } s t

/-- R130. -/
def Obligations.LdVxVyCopiesRegister : Prop :=
  ∀ (x y : Nibble) (s : State), DecodesFrom (.ldVxVy x y) (0x8#4 ++ x ++ y ++ 0x0#4) ∧
    ∃ t, exec (.ldVxVy x y) s = .next t ∧ t.getV x = s.getV y ∧ Unchanged { regs := [x] } s t

/-- R131, R132, R133, bit by bit; VF is not written. -/
def Obligations.LogicWorksBitwiseWithoutFlag : Prop :=
  ∀ (x y : Nibble) (s : State),
    DecodesFrom (.orVxVy x y) (0x8#4 ++ x ++ y ++ 0x1#4) ∧ DecodesFrom (.andVxVy x y) (0x8#4 ++ x ++ y ++ 0x2#4) ∧
    DecodesFrom (.xorVxVy x y) (0x8#4 ++ x ++ y ++ 0x3#4) ∧
    (∃ t, exec (.orVxVy x y) s = .next t ∧
      (∀ b, (t.getV x).getLsbD b = ((s.getV x).getLsbD b || (s.getV y).getLsbD b)) ∧ Unchanged { regs := [x] } s t) ∧
    (∃ t, exec (.andVxVy x y) s = .next t ∧
      (∀ b, (t.getV x).getLsbD b = ((s.getV x).getLsbD b && (s.getV y).getLsbD b)) ∧ Unchanged { regs := [x] } s t) ∧
    (∃ t, exec (.xorVxVy x y) s = .next t ∧
      (∀ b, (t.getV x).getLsbD b = ((s.getV x).getLsbD b ^^ (s.getV y).getLsbD b)) ∧ Unchanged { regs := [x] } s t)

/-- R134. That with x = F the sum is lost and VF ends as the carry, whatever `VF_ALIAS_ORDER` says, is R140 and the spec's
decision D6 (log 12). -/
def Obligations.AddVxVySetsCarry : Prop :=
  ∀ (x y : Nibble) (s : State), DecodesFrom (.addVxVy x y) (0x8#4 ++ x ++ y ++ 0x4#4) ∧
    ∃ t, exec (.addVxVy x y) s = .next t ∧
      (x ≠ 0xF → (t.getV x).toNat = ((s.getV x).toNat + (s.getV y).toNat) % 256) ∧
      t.getV 0xF = (if (s.getV x).toNat + (s.getV y).toNat > 255 then 1 else 0) ∧
      Unchanged { regs := [x, 0xF] } s t

/-- R135 (with the spec's decision D5), R137: the difference modulo 256 and the strict comparison. That with x = F VF ends as
the comparison, whatever `VF_ALIAS_ORDER` says, is R140 and the spec's decision D6 (log 12). -/
def Obligations.SubtractsSetStrictComparison : Prop :=
  ∀ (x y : Nibble) (s : State),
    DecodesFrom (.subVxVy x y) (0x8#4 ++ x ++ y ++ 0x5#4) ∧ DecodesFrom (.subnVxVy x y) (0x8#4 ++ x ++ y ++ 0x7#4) ∧
    (∃ t, exec (.subVxVy x y) s = .next t ∧
      (x ≠ 0xF → (t.getV x).toNat = ((s.getV x).toNat + 256 - (s.getV y).toNat) % 256) ∧
      t.getV 0xF = (if (s.getV x).toNat > (s.getV y).toNat then 1 else 0) ∧ Unchanged { regs := [x, 0xF] } s t) ∧
    (∃ t, exec (.subnVxVy x y) s = .next t ∧
      (x ≠ 0xF → (t.getV x).toNat = ((s.getV y).toNat + 256 - (s.getV x).toNat) % 256) ∧
      t.getV 0xF = (if (s.getV y).toNat > (s.getV x).toNat then 1 else 0) ∧ Unchanged { regs := [x, 0xF] } s t)

/-- R136, both values of `VF_ALIAS_ORDER`; y makes no difference. -/
def Obligations.ShrShiftsRightIntoVF : Prop :=
  ∀ (x y : Nibble) (s : State), DecodesFrom (.shrVx x y) (0x8#4 ++ x ++ y ++ 0x6#4) ∧
    (∀ y', exec (.shrVx x y') s = exec (.shrVx x y) s) ∧
    ∃ t, exec (.shrVx x y) s = .next t ∧
      (x ≠ 0xF → (t.getV x).toNat = (s.getV x).toNat / 2 ∧ (t.getV 0xF).toNat = (s.getV x).toNat % 2) ∧
      (x = 0xF → s.params.aliasOrder = .listed → t.getV 0xF = 0) ∧
      (x = 0xF → s.params.aliasOrder = .sampled → (t.getV 0xF).toNat = (s.getV 0xF).toNat / 2) ∧
      Unchanged { regs := [x, 0xF] } s t

/-- R138, both values of `VF_ALIAS_ORDER`; y makes no difference. -/
def Obligations.ShlShiftsLeftIntoVF : Prop :=
  ∀ (x y : Nibble) (s : State), DecodesFrom (.shlVx x y) (0x8#4 ++ x ++ y ++ 0xE#4) ∧
    (∀ y', exec (.shlVx x y') s = exec (.shlVx x y) s) ∧
    ∃ t, exec (.shlVx x y) s = .next t ∧
      (x ≠ 0xF → (t.getV x).toNat = (s.getV x).toNat * 2 % 256 ∧ (t.getV 0xF).toNat = (s.getV x).toNat / 128) ∧
      (x = 0xF → s.params.aliasOrder = .listed → t.getV 0xF = if 128 ≤ (s.getV 0xF).toNat then 2 else 0) ∧
      (x = 0xF → s.params.aliasOrder = .sampled → (t.getV 0xF).toNat = (s.getV 0xF).toNat * 2 % 256) ∧
      Unchanged { regs := [x, 0xF] } s t

/-! ## Families A, C and F -/

/-- R150. -/
def Obligations.LdINnnLoadsAddress : Prop :=
  ∀ (nnn : Addr12) (s : State), DecodesFrom (.ldINnn nnn) (0xA#4 ++ nnn) ∧
    ∃ t, exec (.ldINnn nnn) s = .next t ∧ t.i.toNat = nnn.toNat ∧ Unchanged { i := true } s t

/-- R152, R245: the drawn byte is the one the random source has ready, or else the free value of this draw, of which
nothing is known; it is used up, and one draw is counted (where the byte comes from is log 5). -/
def Obligations.RndMasksOneFreshByte : Prop :=
  ∀ (x : Nibble) (kk : Byte) (s : State), DecodesFrom (.rnd x kk) (0xC#4 ++ x ++ kk) ∧
    ∃ (r : Byte) (t : State), exec (.rnd x kk) s = .next t ∧ t.getV x = r &&& kk ∧
      (∀ b bs, s.rand = b :: bs → r = b ∧ t.rand = bs) ∧
      (s.rand = [] → r = Config.randomByte s.draws ∧ t.rand = []) ∧ t.draws = s.draws + 1 ∧
      Unchanged { regs := [x], random := true } s t

/-- R190. -/
def Obligations.LdVxDtReadsDelayTimer : Prop :=
  ∀ (x : Nibble) (s : State), DecodesFrom (.ldVxDt x) (0xF#4 ++ x ++ 0x07#8) ∧
    ∃ t, exec (.ldVxDt x) s = .next t ∧ t.getV x = s.dt ∧ Unchanged { regs := [x] } s t

/-- R192, R193. -/
def Obligations.TimerLoadsCopyVx : Prop :=
  ∀ (x : Nibble) (s : State),
    DecodesFrom (.ldDtVx x) (0xF#4 ++ x ++ 0x15#8) ∧ DecodesFrom (.ldStVx x) (0xF#4 ++ x ++ 0x18#8) ∧
    (∃ t, exec (.ldDtVx x) s = .next t ∧ t.dt = s.getV x ∧ Unchanged { dt := true } s t) ∧
    (∃ t, exec (.ldStVx x) s = .next t ∧ t.st = s.getV x ∧ Unchanged { st := true } s t)

/-- R194: modulo 2^16, VF not written. -/
def Obligations.AddIVxWrapsWithoutFlag : Prop :=
  ∀ (x : Nibble) (s : State), DecodesFrom (.addIVx x) (0xF#4 ++ x ++ 0x1E#8) ∧
    ∃ t, exec (.addIVx x) s = .next t ∧ t.i.toNat = (s.i.toNat + (s.getV x).toNat) % 65536 ∧
      Unchanged { i := true } s t

/-- R195: the whole byte times 5. -/
def Obligations.LdFVxPointsAtGlyph : Prop :=
  ∀ (x : Nibble) (s : State), DecodesFrom (.ldFVx x) (0xF#4 ++ x ++ 0x29#8) ∧
    ∃ t, exec (.ldFVx x) s = .next t ∧ t.i.toNat = (s.getV x).toNat * 5 ∧ Unchanged { i := true } s t

/-- R196: hundreds, tens, ones at `I`, `I + 1`, `I + 2`, or the fault with nothing stored. -/
def Obligations.BcdStoresThreeDigits : Prop :=
  ∀ (x : Nibble) (s : State), DecodesFrom (.ldBVx x) (0xF#4 ++ x ++ 0x33#8) ∧
    (s.i.toNat + 2 ≤ 4095 → ∃ t, exec (.ldBVx x) s = .next t ∧
      (t.readByte (s.dataAddr 0)).toNat = (s.getV x).toNat / 100 ∧
      (t.readByte (s.dataAddr 1)).toNat = (s.getV x).toNat / 10 % 10 ∧
      (t.readByte (s.dataAddr 2)).toNat = (s.getV x).toNat % 10 ∧
      Unchanged { storeAt := s.dataAddr 0, storeLen := 3 } s t) ∧
    (4095 < s.i.toNat + 2 → exec (.ldBVx x) s =
      .fault (.memRangeData (0xF#4 ++ x ++ 0x33#8) s.i (max s.i.toNat 4096) (s.i.toNat + 2)))

/-- R197: V0..Vx at `I` .. `I + x`, I unchanged, or the fault with nothing stored. -/
def Obligations.StoreBlockWritesV0ToVx : Prop :=
  ∀ (x : Nibble) (s : State), DecodesFrom (.ldMemVx x) (0xF#4 ++ x ++ 0x55#8) ∧
    (s.i.toNat + x.toNat ≤ 4095 → ∃ t, exec (.ldMemVx x) s = .next t ∧
      (∀ y : Nibble, y.toNat ≤ x.toNat → t.readByte (s.dataAddr y.toNat) = s.getV y) ∧
      Unchanged { storeAt := s.dataAddr 0, storeLen := x.toNat + 1 } s t) ∧
    (4095 < s.i.toNat + x.toNat → exec (.ldMemVx x) s =
      .fault (.memRangeData (0xF#4 ++ x ++ 0x55#8) s.i (max s.i.toNat 4096) (s.i.toNat + x.toNat)))

/-- R198: V0..Vx from `I` .. `I + x`, the registers above Vx and I unchanged, or the fault with nothing loaded. -/
def Obligations.LoadBlockReadsV0ToVx : Prop :=
  ∀ (x : Nibble) (s : State), DecodesFrom (.ldVxMem x) (0xF#4 ++ x ++ 0x65#8) ∧
    (s.i.toNat + x.toNat ≤ 4095 → ∃ t, exec (.ldVxMem x) s = .next t ∧
      (∀ y : Nibble, t.getV y = if y.toNat ≤ x.toNat then s.readByte (s.dataAddr y.toNat) else s.getV y) ∧
      Unchanged { regs := (List.range (x.toNat + 1)).map (BitVec.ofNat 4) } s t) ∧
    (4095 < s.i.toNat + x.toNat → exec (.ldVxMem x) s =
      .fault (.memRangeData (0xF#4 ++ x ++ 0x65#8) s.i (max s.i.toNat 4096) (s.i.toNat + x.toNat)))

/-- R60: whatever `Fx33` or `Fx55` stored, a fetch from any pc that can be fetched from sees it, byte by byte, and sees every
other byte as it was; the very next opcode is the case `p = t.pc`. -/
def Obligations.StoredBytesAreFetched : Prop :=
  ∀ (x : Nibble) (s t : State) (p : Word), p.toNat ≤ 4094 →
    (exec (.ldBVx x) s = .next t → ∃ op, fetch { t with pc := p } = .ok op ∧
      op.toNat = byteAfterBcd s x p.toNat * 256 + byteAfterBcd s x (p.toNat + 1)) ∧
    (exec (.ldMemVx x) s = .next t → ∃ op, fetch { t with pc := p } = .ok op ∧
      op.toNat = byteAfterBlock s x p.toNat * 256 + byteAfterBlock s x (p.toNat + 1))

/-! ## The key wait, the other agents -/

/-- R191, R242: the first key-down after the wait began ends it, in the instruction itself or in a step of the waiting
engine; ticks and cycles that stood before it do not happen, and the key events delivered meanwhile set the levels (R241). The
order of the outside is the model's list (log 2), and that the key which ends the wait is reported down afterwards is log 3
(R243). -/
def Obligations.KeyDownEndsTheWait : Prop :=
  ∀ (x k : Nibble) (s : State) (pre post : List HostEvent),
    DecodesFrom (.ldVxK x) (0xF#4 ++ x ++ 0x0A#8) ∧
    (s.host = pre ++ .keyDown k :: post → NoKeyDown pre →
      (∃ t, exec (.ldVxK x) s = .next t ∧ (t.getV x).toNat = k.toNat ∧ t.host = post ∧ t.waiting = none ∧
        (∀ j : Nibble, t.keyDown j = latestLevel j (s.keyDown j) (pre ++ [.keyDown k])) ∧
        Unchanged { regs := [x], outside := true } s t) ∧
      (s.waiting = some x → ∃ t, step s = .next t ∧ (t.getV x).toNat = k.toNat ∧ t.host = post ∧ t.waiting = none ∧
        (∀ j : Nibble, t.keyDown j = latestLevel j (s.keyDown j) (pre ++ [.keyDown k])) ∧
        Unchanged { regs := [x], outside := true } s t))

/-- R191, R233, R253: without a key-down the engine waits, every register, timer, byte, pixel and stack entry and pc as they
are; what the outside had left is used up, and its key-ups set the levels (R241); with nothing left to come it waits for ever
(how a wait stands in a run of steps is log 2 and log 3). -/
def Obligations.WaitWithoutKeyFreezesTheMachine : Prop :=
  ∀ (x : Nibble) (s : State), NoKeyDown s.host →
    (∃ t, exec (.ldVxK x) s = .next t ∧ t.waiting = some x ∧ t.host = [] ∧
      (∀ j : Nibble, t.keyDown j = latestLevel j (s.keyDown j) s.host) ∧ Unchanged { outside := true } s t) ∧
    (s.waiting = some x → ∃ t, step s = .next t ∧ t.waiting = some x ∧ t.host = [] ∧
      (∀ j : Nibble, t.keyDown j = latestLevel j (s.keyDown j) s.host) ∧ Unchanged { outside := true } s t ∧
      (s.host = [] → t = s))

/-- R231, R232: a tick between cycles, a move of the model's list (log 2). -/
def Obligations.TickCountsBothTimersDown : Prop :=
  ∀ (s : State) (es : List HostEvent), s.waiting = none → s.host = .tick :: es →
    ∃ t, step s = .next t ∧ t.dt.toNat = s.dt.toNat - 1 ∧ t.st.toNat = s.st.toNat - 1 ∧
      t.host = es ∧ t.keys = s.keys ∧ t.waiting = none ∧
      Unchanged { dt := true, st := true, outside := true } s t

/-- R241, R243: after any sequence of key events, delivered while the engine is not waiting, a key's level is what the
latest event of that key says, and nothing else has changed (events as moves of the list `host`: log 2). -/
def Obligations.KeyLevelIsTheLatestEvent : Prop :=
  ∀ (events rest : List HostEvent) (s : State), s.waiting = none → s.host = events ++ rest →
    (∀ e ∈ events, isKeyEvent e = true) →
    ∃ t, core.run events.length s = .next t ∧ (∀ k, t.keyDown k = latestLevel k (s.keyDown k) events) ∧
      t.host = rest ∧ t.waiting = none ∧ Unchanged { outside := true } s t

/-- R161, R162, R163: the display's primitives (`set` turns on: the spec's own reading, log 14). -/
def Obligations.DisplayPrimitivesCheckBounds : Prop :=
  ∀ (d : Display) (x y : Nat),
    (∀ px py, d.clear.isOn px py = false) ∧
    (∀ (px : Fin 64) (py : Fin 32), px.val = x → py.val = y → d.isSet x y = .ok (d.isOn px py) ∧
      ∃ d', d.setPixel x y = .ok d' ∧ d'.isOn px py = true ∧
        ∀ qx qy, (qx, qy) ≠ (px, py) → d'.isOn qx qy = d.isOn qx qy) ∧
    (64 ≤ x ∨ 32 ≤ y → d.isSet x y = .error (.pixelRange x y) ∧ d.setPixel x y = .error (.pixelRange x y))

/-- R163, R246: a renderer's read between cycles changes nothing; off the grid it is the fault `PixelRange` to its caller
(that the step reports it is the model's, log 14). -/
def Obligations.RendererReadChangesNothing : Prop :=
  ∀ (s : State) (x y : Nat) (es : List HostEvent), s.waiting = none → s.host = .pixel x y :: es →
    (x < 64 → y < 32 → step s = .next { s with host := es }) ∧
    (64 ≤ x ∨ 32 ≤ y → s.params.onFault = .haltRun → step s = .fault (.pixelRange x y))

/-! ## Family D -/

/-- R164, R165, R167, R169: every pixel is toggled exactly when a sprite bit 1 lies on it with wrap, and the flag is set
exactly when such a pixel was on. Which bit is which column is the spec's general knowledge (R167, D10; log 11). -/
def Obligations.SpriteComposesByXor : Prop :=
  ∀ (d : Display) (x y : Nat) (rows : List Byte), rows.length ≤ 15 →
    (∀ px py, SpriteBitAt rows x y px py → (d.drawSprite x y rows).1.isOn px py = !d.isOn px py) ∧
    (∀ px py, ¬ SpriteBitAt rows x y px py → (d.drawSprite x y rows).1.isOn px py = d.isOn px py) ∧
    ((d.drawSprite x y rows).2 = true ↔ ∃ px py, SpriteBitAt rows x y px py ∧ d.isOn px py = true)

/-- R168 (a), (b), (c). That bit 6 of the second row is the one that reaches pixel (0,0) in (b) rests on the bit order of R167,
the spec's general knowledge (D10; log 11). -/
def Obligations.SpriteDrawnTwiceRestores : Prop :=
  ∀ (d : Display) (x y : Nat) (rows : List Byte), rows.length ≤ 15 →
    ((d.drawSprite x y rows).1.drawSprite x y rows).1 = d ∧
    (((d.drawSprite x y rows).1.drawSprite x y rows).2 = true ↔
      ∃ px py, d.isOn px py = false ∧ (d.drawSprite x y rows).1.isOn px py = true) ∧
    (x = 63 → y = 31 → ∀ row, rows[1]? = some row → row.getLsbD 6 = true →
      (d.drawSprite x y rows).1.isOn 0 0 = !d.isOn 0 0) ∧
    ((∀ row ∈ rows, row = 0) → d.drawSprite x y rows = (d, false))

/-- R166: the rows are the n bytes at I, the coordinates are Vx and Vy as they were, VF is always the collision flag; the
range is checked first, and n = 0 reads nothing and cannot fault. `drawSprite` is what `Obligations.SpriteComposesByXor`
says. -/
def Obligations.DrwDrawsSpriteAndSetsVF : Prop :=
  ∀ (x y n : Nibble) (s : State), DecodesFrom (.drw x y n) (0xD#4 ++ x ++ y ++ n) ∧
    (n.toNat = 0 ∨ s.i.toNat + n.toNat - 1 ≤ 4095 →
      ∃ t rows, exec (.drw x y n) s = .next t ∧ rows.length = n.toNat ∧
        (∀ r, (h : r < rows.length) → rows[r] = s.readByte (s.dataAddr r)) ∧
        t.disp = (s.disp.drawSprite (s.getV x).toNat (s.getV y).toNat rows).1 ∧
        t.getV 0xF = (if (s.disp.drawSprite (s.getV x).toNat (s.getV y).toNat rows).2 then 1 else 0) ∧
        Unchanged { regs := [0xF], disp := true } s t) ∧
    (0 < n.toNat → 4095 < s.i.toNat + n.toNat - 1 → exec (.drw x y n) s =
      .fault (.memRangeData (0xD#4 ++ x ++ y ++ n) s.i (max s.i.toNat 4096) (s.i.toNat + n.toNat - 1)))

/-! ## The whole machine -/

/-- R41, the columns written: whatever the instruction, nothing outside its row changes. -/
def Obligations.InstructionsWriteOnlyTheirColumns : Prop :=
  ∀ (i : Instr) (s t : State), exec i s = .next t → Unchanged (footprint s i) s t

/-- The bounds R24 gives, the canonical form of memory (the model's, log 9): every step keeps them, whatever it does. -/
def Obligations.EveryStepKeepsTheBounds : Prop := ∀ s t : State, s.Inv → step s = .next t → t.Inv

/-- The invariant holds right after reset. -/
def Obligations.ResetMeetsTheBounds : Prop := State.reset.Inv

/-- The parameters are fixed and a report is never withdrawn (log 6, log 7): no step writes the parameters, and it adds at
most one fault to the reports. -/
def Obligations.ParametersAndReportsAreKept : Prop :=
  ∀ s t : State, step s = .next t → t.params = s.params ∧ (t.faults = s.faults ∨ ∃ r, t.faults = r :: s.faults)

/-- R270, the spec's own definition of a finished program (D19): in such a state a cycle changes nothing at all but the due
event (log 2). -/
def Obligations.JumpToItselfIsFinal : Prop :=
  ∀ (s : State) (es : List HostEvent), s.Finished → CycleIsDue s es → step s = .next { s with host := es }

/-- The rows of R140's table in which VF is an operand that matters, as they follow from the rules of the family (D6,
log 12). -/
def Obligations.VFAliasTableHolds : Prop :=
  ∀ (x y : Nibble) (s : State), x ≠ 0xF → y ≠ 0xF →
    let f := (s.getV 0xF).toNat
    (∃ t, exec (.addVxVy x 0xF) s = .next t ∧ (t.getV x).toNat = ((s.getV x).toNat + f) % 256 ∧
      t.getV 0xF = if (s.getV x).toNat + f > 255 then 1 else 0) ∧
    (∃ t, exec (.addVxVy 0xF y) s = .next t ∧ t.getV 0xF = if f + (s.getV y).toNat > 255 then 1 else 0) ∧
    (∃ t, exec (.addVxVy 0xF 0xF) s = .next t ∧ t.getV 0xF = if 2 * f > 255 then 1 else 0) ∧
    (∃ t, exec (.subVxVy x 0xF) s = .next t ∧ (t.getV x).toNat = ((s.getV x).toNat + 256 - f) % 256 ∧
      t.getV 0xF = if (s.getV x).toNat > f then 1 else 0) ∧
    (∃ t, exec (.subVxVy 0xF y) s = .next t ∧ t.getV 0xF = if f > (s.getV y).toNat then 1 else 0) ∧
    (∃ t, exec (.subVxVy 0xF 0xF) s = .next t ∧ t.getV 0xF = 0) ∧
    (∃ t, exec (.subnVxVy x 0xF) s = .next t ∧ (t.getV x).toNat = (f + 256 - (s.getV x).toNat) % 256 ∧
      t.getV 0xF = if f > (s.getV x).toNat then 1 else 0) ∧
    (∃ t, exec (.subnVxVy 0xF y) s = .next t ∧ t.getV 0xF = if (s.getV y).toNat > f then 1 else 0) ∧
    (∃ t, exec (.subnVxVy 0xF 0xF) s = .next t ∧ t.getV 0xF = 0) ∧
    (∃ t, exec (.shrVx 0xF y) s = .next t ∧
      (t.getV 0xF).toNat = match s.params.aliasOrder with | .listed => 0 | .sampled => f / 2) ∧
    (∃ t, exec (.shlVx 0xF y) s = .next t ∧
      (t.getV 0xF).toNat = match s.params.aliasOrder with
        | .listed => if 128 ≤ f then 2 else 0
        | .sampled => f * 2 % 256) ∧
    (∃ t, exec (.ldVxVy 0xF 0xF) s = .next t ∧ t.getV 0xF = s.getV 0xF) ∧
    (∃ t, exec (.orVxVy 0xF 0xF) s = .next t ∧ t.getV 0xF = s.getV 0xF) ∧
    (∃ t, exec (.andVxVy 0xF 0xF) s = .next t ∧ t.getV 0xF = s.getV 0xF) ∧
    (∃ t, exec (.xorVxVy 0xF 0xF) s = .next t ∧ t.getV 0xF = 0)
end

