-- ==== Sys2Proof/Laws/Decode.lean ====
section
/-! SUPPORT. The fields of an opcode built from its parts (30_encoding.md R72, R74), and the bytes of a word. -/

namespace Sys2Proof

/-- Every opcode is its four nibbles. -/
theorem word_eq_nibbles (op : Word) : op = fieldH op ++ fieldX op ++ fieldY op ++ fieldN op := by
  apply BitVec.eq_of_getLsbD_eq
  intro i hi
  simp only [fieldH, fieldX, fieldY, fieldN, BitVec.getLsbD_append, BitVec.getLsbD_extractLsb']
  grind

/-- Every opcode is its family and its 12-bit address. -/
theorem word_eq_h_nnn (op : Word) : op = fieldH op ++ fieldNnn op := by
  apply BitVec.eq_of_getLsbD_eq
  intro i hi
  simp only [fieldH, fieldNnn, BitVec.getLsbD_append, BitVec.getLsbD_extractLsb']
  grind

/-- Every opcode is its family, a register and its low byte. -/
theorem word_eq_h_x_kk (op : Word) : op = fieldH op ++ fieldX op ++ fieldKk op := by
  apply BitVec.eq_of_getLsbD_eq
  intro i hi
  simp only [fieldH, fieldX, fieldKk, BitVec.getLsbD_append, BitVec.getLsbD_extractLsb']
  grind

/-! ### Format A: h, nnn -/

@[simp] theorem fieldH_A (h : Nibble) (nnn : Addr12) : fieldH (h ++ nnn) = h := by simp only [fieldH]; grind

@[simp] theorem fieldNnn_A (h : Nibble) (nnn : Addr12) : fieldNnn (h ++ nnn) = nnn := by simp only [fieldNnn]; grind

/-! ### Formats XK and X: h, x, kk -/

@[simp] theorem fieldH_XK (h x : Nibble) (kk : Byte) : fieldH (h ++ x ++ kk) = h := by simp only [fieldH]; grind

@[simp] theorem fieldX_XK (h x : Nibble) (kk : Byte) : fieldX (h ++ x ++ kk) = x := by simp only [fieldX]; grind

@[simp] theorem fieldKk_XK (h x : Nibble) (kk : Byte) : fieldKk (h ++ x ++ kk) = kk := by simp only [fieldKk]; grind

/-! ### Formats XY and XYN: h, x, y, n -/

@[simp] theorem fieldH_XYN (h x y n : Nibble) : fieldH (h ++ x ++ y ++ n) = h := by simp only [fieldH]; grind

@[simp] theorem fieldX_XYN (h x y n : Nibble) : fieldX (h ++ x ++ y ++ n) = x := by simp only [fieldX]; grind

@[simp] theorem fieldY_XYN (h x y n : Nibble) : fieldY (h ++ x ++ y ++ n) = y := by simp only [fieldY]; grind

@[simp] theorem fieldN_XYN (h x y n : Nibble) : fieldN (h ++ x ++ y ++ n) = n := by simp only [fieldN]; grind

/-! ### Bytes -/

/-- A word is the word of its two bytes (R52). -/
theorem wordOfBytes_bytesOfWord (op : Word) : wordOfBytes (op.extractLsb' 8 8) (op.extractLsb' 0 8) = op := by
  apply BitVec.eq_of_getLsbD_eq
  intro i hi
  simp only [wordOfBytes, BitVec.getLsbD_append, BitVec.getLsbD_extractLsb']
  grind

/-- The value of the word of two bytes: the first counts 256 (R52). -/
theorem toNat_wordOfBytes (hi lo : Byte) : (wordOfBytes hi lo).toNat = hi.toNat * 256 + lo.toNat := by
  have := lo.isLt
  rw [wordOfBytes, BitVec.toNat_append, ← Nat.shiftLeft_add_eq_or_of_lt this, Nat.shiftLeft_eq]

end Sys2Proof
end

