-- ==== Sys2Proof/Laws/Display.lean ====
section
/-! SUPPORT. The display's operations on one pixel. -/

namespace Sys2Proof.Machine.Display

theorem isOn_put (d : Display) (px qx : Fin 64) (py qy : Fin 32) (b : Bool) :
    (d.put px py b).isOn qx qy = if qx = px ∧ qy = py then b else d.isOn qx qy := by
  simp only [isOn, put, Fin.getElem_fin, Vector.getElem_set, Fin.ext_iff]
  by_cases hy : py.val = qy.val
  · by_cases hx : px.val = qx.val
    · simp [hx, hy]
    · simp [hx, hy, eq_comm]
  · simp [hy, eq_comm]

@[simp] theorem isOn_clear (d : Display) (px : Fin 64) (py : Fin 32) : d.clear.isOn px py = false := by
  simp [isOn, clear]

theorem isOn_toggle (d : Display) (px qx : Fin 64) (py qy : Fin 32) :
    (d.toggle px py).isOn qx qy = if qx = px ∧ qy = py then !d.isOn qx qy else d.isOn qx qy := by
  unfold toggle
  rw [isOn_put]
  split
  · rename_i h; rw [h.1, h.2]
  · rfl

/-- Two displays with the same pixels are the same display. -/
theorem ext_isOn {d e : Display} (h : ∀ px py, d.isOn px py = e.isOn px py) : d = e := by
  refine Vector.ext fun j hj => Vector.ext fun i hi => ?_
  exact h ⟨i, hi⟩ ⟨j, hj⟩

/-- A drawn bit toggles its own pixel and no other, and records a collision with a lit one. -/
theorem isOn_drawBit (x y : Nat) (b : Bool) (dc : Display × Bool) (px : Fin 64) (py : Fin 32) :
    (drawBit x y b dc).1.isOn px py =
      if b = true ∧ px = wrapX x ∧ py = wrapY y then !dc.1.isOn px py else dc.1.isOn px py := by
  cases b <;> simp [drawBit, isOn_toggle]

theorem collision_drawBit (x y : Nat) (b : Bool) (dc : Display × Bool) :
    (drawBit x y b dc).2 = (dc.2 || (b && dc.1.isOn (wrapX x) (wrapY y))) := by
  cases b <;> simp [drawBit]

end Sys2Proof.Machine.Display
end

