-- ==== Sys2Proof/Laws/Memory.lean ====
section
/-! SUPPORT. Memory: a read after a write, every other address left alone, and the canonical form kept by every operation. -/

namespace Sys2Proof.Machine.Memory

theorem read_erase (m : Memory) (a k : Nat) : (erase m a).read k = if k = a then unlisted k else m.read k := by
  induction m with
  | nil => simp [erase, read]
  | cons c m ih =>
    obtain ⟨j, b⟩ := c
    have e : erase ((j, b) :: m) a = if j = a then erase m a else (j, b) :: erase m a := by
      by_cases h : j = a <;> simp [erase, h]
    rw [e]
    by_cases h : j = a <;> by_cases hk : k = a <;> simp_all [read]
    all_goals grind

theorem read_insert (m : Memory) (a k : Nat) (b : Byte) : (insert m a b).read k = if k = a then b else m.read k := by
  induction m with
  | nil => by_cases h : a = k <;> simp [insert, read, h, eq_comm]
  | cons c m ih =>
    obtain ⟨j, d⟩ := c
    simp only [insert]
    grind [read]

/-- A read after a write: the byte written at its address, the byte that was there at every other. -/
theorem read_write (m : Memory) (a k : Nat) (b : Byte) : (m.write a b).read k = if k = a then b else m.read k := by
  unfold write
  split
  · rename_i h
    rw [read_erase, h]
    by_cases hk : k = a <;> simp [hk]
  · exact read_insert m a k b

theorem mem_insert {m : Memory} {a : Nat} {b : Byte} {c : Host.Cell} (h : c ∈ insert m a b) : c = (a, b) ∨ c ∈ m := by
  induction m with
  | nil => simpa [insert] using h
  | cons d m ih =>
    obtain ⟨k, e⟩ := d
    simp only [insert] at h
    grind

theorem wf_erase {m : Memory} (a : Nat) (h : m.wf) : (erase m a).wf :=
  ⟨h.1.sublist List.filter_sublist, fun c hc => h.2 c (List.mem_filter.mp hc).1⟩

theorem pairwise_insert {m : Memory} (a : Nat) (b : Byte) (h : m.Pairwise (fun c d => c.1 < d.1)) :
    (insert m a b).Pairwise (fun c d => c.1 < d.1) := by
  induction m with
  | nil => simp [insert]
  | cons d m ih =>
    obtain ⟨k, e⟩ := d
    rw [List.pairwise_cons] at h
    simp only [insert]
    split
    · rename_i hlt
      refine List.pairwise_cons.mpr ⟨fun c hc => ?_, List.pairwise_cons.mpr h⟩
      rcases List.mem_cons.mp hc with rfl | hc
      · exact hlt
      · exact Nat.lt_trans hlt (h.1 c hc)
    · split
      · rename_i heq
        exact List.pairwise_cons.mpr ⟨fun c hc => by simpa [heq] using h.1 c hc, h.2⟩
      · refine List.pairwise_cons.mpr ⟨fun c hc => ?_, ih h.2⟩
        rcases mem_insert hc with rfl | hc
        · show k < a; omega
        · exact h.1 c hc

theorem wf_insert {m : Memory} {a : Nat} {b : Byte} (ha : a < Config.memSize) (hb : b ≠ unlisted a) (h : m.wf) :
    (insert m a b).wf := by
  refine ⟨pairwise_insert a b h.1, fun c hc => ?_⟩
  rcases mem_insert hc with rfl | hc
  · exact ⟨ha, hb⟩
  · exact h.2 c hc

/-- A write to an address of the machine keeps the canonical form. -/
theorem wf_write {m : Memory} {a : Nat} (b : Byte) (ha : a < Config.memSize) (h : m.wf) : (m.write a b).wf := by
  unfold write
  split
  · exact wf_erase a h
  · rename_i hb; exact wf_insert ha hb h

/-- A write of bytes inside the memory keeps the canonical form. -/
theorem wf_writeBytes {m : Memory} {a : Nat} {bs : List Byte} (ha : a + bs.length ≤ Config.memSize) (h : m.wf) :
    (m.writeBytes a bs).wf := by
  induction bs generalizing m a with
  | nil => exact h
  | cons b bs ih =>
    simp only [List.length_cons] at ha
    exact ih (by omega) (wf_write b (by omega) h)

/-- What a write of bytes stores and leaves alone. -/
theorem read_writeBytes (m : Memory) (a k : Nat) (bs : List Byte) :
    (m.writeBytes a bs).read k = if h : a ≤ k ∧ k < a + bs.length then bs[k - a]'(by omega) else m.read k := by
  induction bs generalizing m a with
  | nil => simp only [writeBytes, List.length_nil]; rw [dif_neg (by omega)]
  | cons b bs ih =>
    simp only [writeBytes, List.length_cons]
    rw [ih, read_write]
    by_cases h : k = a
    · subst h; simp
    · by_cases h' : a + 1 ≤ k ∧ k < a + 1 + bs.length
      · rw [dif_pos h', dif_pos (by omega)]
        obtain ⟨j, rfl⟩ : ∃ j, k = a + 1 + j := ⟨k - (a + 1), by omega⟩
        simp [show a + 1 + j - a = j + 1 by omega]
      · rw [dif_neg h', dif_neg (by omega), if_neg h]

end Sys2Proof.Machine.Memory
end

