-- ==== Sys2Proof/Laws/State.lean ====
section
/-! SUPPORT. One lemma per field per update of State, and what `getV`, `readByte` and `keyDown` read after an update, so that
no later proof unfolds a record update. -/

namespace Sys2Proof.Machine.State

/-! ### setV -/

@[simp] theorem setV_i (s : State) (x : Nibble) (b : Byte) : (s.setV x b).i = s.i := rfl
@[simp] theorem setV_pc (s : State) (x : Nibble) (b : Byte) : (s.setV x b).pc = s.pc := rfl
@[simp] theorem setV_dt (s : State) (x : Nibble) (b : Byte) : (s.setV x b).dt = s.dt := rfl
@[simp] theorem setV_st (s : State) (x : Nibble) (b : Byte) : (s.setV x b).st = s.st := rfl
@[simp] theorem setV_stack (s : State) (x : Nibble) (b : Byte) : (s.setV x b).stack = s.stack := rfl
@[simp] theorem setV_sp (s : State) (x : Nibble) (b : Byte) : (s.setV x b).sp = s.sp := rfl
@[simp] theorem setV_mem (s : State) (x : Nibble) (b : Byte) : (s.setV x b).mem = s.mem := rfl
@[simp] theorem setV_disp (s : State) (x : Nibble) (b : Byte) : (s.setV x b).disp = s.disp := rfl
@[simp] theorem setV_waiting (s : State) (x : Nibble) (b : Byte) : (s.setV x b).waiting = s.waiting := rfl
@[simp] theorem setV_keys (s : State) (x : Nibble) (b : Byte) : (s.setV x b).keys = s.keys := rfl
@[simp] theorem setV_host (s : State) (x : Nibble) (b : Byte) : (s.setV x b).host = s.host := rfl
@[simp] theorem setV_rand (s : State) (x : Nibble) (b : Byte) : (s.setV x b).rand = s.rand := rfl
@[simp] theorem setV_draws (s : State) (x : Nibble) (b : Byte) : (s.setV x b).draws = s.draws := rfl
@[simp] theorem setV_faults (s : State) (x : Nibble) (b : Byte) : (s.setV x b).faults = s.faults := rfl
@[simp] theorem setV_params (s : State) (x : Nibble) (b : Byte) : (s.setV x b).params = s.params := rfl

/-! ### setI -/

@[simp] theorem setI_v (s : State) (a : Word) : (s.setI a).v = s.v := rfl
@[simp] theorem setI_i (s : State) (a : Word) : (s.setI a).i = a := rfl
@[simp] theorem setI_pc (s : State) (a : Word) : (s.setI a).pc = s.pc := rfl
@[simp] theorem setI_dt (s : State) (a : Word) : (s.setI a).dt = s.dt := rfl
@[simp] theorem setI_st (s : State) (a : Word) : (s.setI a).st = s.st := rfl
@[simp] theorem setI_stack (s : State) (a : Word) : (s.setI a).stack = s.stack := rfl
@[simp] theorem setI_sp (s : State) (a : Word) : (s.setI a).sp = s.sp := rfl
@[simp] theorem setI_mem (s : State) (a : Word) : (s.setI a).mem = s.mem := rfl
@[simp] theorem setI_disp (s : State) (a : Word) : (s.setI a).disp = s.disp := rfl
@[simp] theorem setI_waiting (s : State) (a : Word) : (s.setI a).waiting = s.waiting := rfl
@[simp] theorem setI_keys (s : State) (a : Word) : (s.setI a).keys = s.keys := rfl
@[simp] theorem setI_host (s : State) (a : Word) : (s.setI a).host = s.host := rfl
@[simp] theorem setI_rand (s : State) (a : Word) : (s.setI a).rand = s.rand := rfl
@[simp] theorem setI_draws (s : State) (a : Word) : (s.setI a).draws = s.draws := rfl
@[simp] theorem setI_faults (s : State) (a : Word) : (s.setI a).faults = s.faults := rfl
@[simp] theorem setI_params (s : State) (a : Word) : (s.setI a).params = s.params := rfl

/-! ### setPc -/

@[simp] theorem setPc_v (s : State) (a : Word) : (s.setPc a).v = s.v := rfl
@[simp] theorem setPc_i (s : State) (a : Word) : (s.setPc a).i = s.i := rfl
@[simp] theorem setPc_pc (s : State) (a : Word) : (s.setPc a).pc = a := rfl
@[simp] theorem setPc_dt (s : State) (a : Word) : (s.setPc a).dt = s.dt := rfl
@[simp] theorem setPc_st (s : State) (a : Word) : (s.setPc a).st = s.st := rfl
@[simp] theorem setPc_stack (s : State) (a : Word) : (s.setPc a).stack = s.stack := rfl
@[simp] theorem setPc_sp (s : State) (a : Word) : (s.setPc a).sp = s.sp := rfl
@[simp] theorem setPc_mem (s : State) (a : Word) : (s.setPc a).mem = s.mem := rfl
@[simp] theorem setPc_disp (s : State) (a : Word) : (s.setPc a).disp = s.disp := rfl
@[simp] theorem setPc_waiting (s : State) (a : Word) : (s.setPc a).waiting = s.waiting := rfl
@[simp] theorem setPc_keys (s : State) (a : Word) : (s.setPc a).keys = s.keys := rfl
@[simp] theorem setPc_host (s : State) (a : Word) : (s.setPc a).host = s.host := rfl
@[simp] theorem setPc_rand (s : State) (a : Word) : (s.setPc a).rand = s.rand := rfl
@[simp] theorem setPc_draws (s : State) (a : Word) : (s.setPc a).draws = s.draws := rfl
@[simp] theorem setPc_faults (s : State) (a : Word) : (s.setPc a).faults = s.faults := rfl
@[simp] theorem setPc_params (s : State) (a : Word) : (s.setPc a).params = s.params := rfl

/-! ### setDt -/

@[simp] theorem setDt_v (s : State) (b : Byte) : (s.setDt b).v = s.v := rfl
@[simp] theorem setDt_i (s : State) (b : Byte) : (s.setDt b).i = s.i := rfl
@[simp] theorem setDt_pc (s : State) (b : Byte) : (s.setDt b).pc = s.pc := rfl
@[simp] theorem setDt_dt (s : State) (b : Byte) : (s.setDt b).dt = b := rfl
@[simp] theorem setDt_st (s : State) (b : Byte) : (s.setDt b).st = s.st := rfl
@[simp] theorem setDt_stack (s : State) (b : Byte) : (s.setDt b).stack = s.stack := rfl
@[simp] theorem setDt_sp (s : State) (b : Byte) : (s.setDt b).sp = s.sp := rfl
@[simp] theorem setDt_mem (s : State) (b : Byte) : (s.setDt b).mem = s.mem := rfl
@[simp] theorem setDt_disp (s : State) (b : Byte) : (s.setDt b).disp = s.disp := rfl
@[simp] theorem setDt_waiting (s : State) (b : Byte) : (s.setDt b).waiting = s.waiting := rfl
@[simp] theorem setDt_keys (s : State) (b : Byte) : (s.setDt b).keys = s.keys := rfl
@[simp] theorem setDt_host (s : State) (b : Byte) : (s.setDt b).host = s.host := rfl
@[simp] theorem setDt_rand (s : State) (b : Byte) : (s.setDt b).rand = s.rand := rfl
@[simp] theorem setDt_draws (s : State) (b : Byte) : (s.setDt b).draws = s.draws := rfl
@[simp] theorem setDt_faults (s : State) (b : Byte) : (s.setDt b).faults = s.faults := rfl
@[simp] theorem setDt_params (s : State) (b : Byte) : (s.setDt b).params = s.params := rfl

/-! ### setSt -/

@[simp] theorem setSt_v (s : State) (b : Byte) : (s.setSt b).v = s.v := rfl
@[simp] theorem setSt_i (s : State) (b : Byte) : (s.setSt b).i = s.i := rfl
@[simp] theorem setSt_pc (s : State) (b : Byte) : (s.setSt b).pc = s.pc := rfl
@[simp] theorem setSt_dt (s : State) (b : Byte) : (s.setSt b).dt = s.dt := rfl
@[simp] theorem setSt_st (s : State) (b : Byte) : (s.setSt b).st = b := rfl
@[simp] theorem setSt_stack (s : State) (b : Byte) : (s.setSt b).stack = s.stack := rfl
@[simp] theorem setSt_sp (s : State) (b : Byte) : (s.setSt b).sp = s.sp := rfl
@[simp] theorem setSt_mem (s : State) (b : Byte) : (s.setSt b).mem = s.mem := rfl
@[simp] theorem setSt_disp (s : State) (b : Byte) : (s.setSt b).disp = s.disp := rfl
@[simp] theorem setSt_waiting (s : State) (b : Byte) : (s.setSt b).waiting = s.waiting := rfl
@[simp] theorem setSt_keys (s : State) (b : Byte) : (s.setSt b).keys = s.keys := rfl
@[simp] theorem setSt_host (s : State) (b : Byte) : (s.setSt b).host = s.host := rfl
@[simp] theorem setSt_rand (s : State) (b : Byte) : (s.setSt b).rand = s.rand := rfl
@[simp] theorem setSt_draws (s : State) (b : Byte) : (s.setSt b).draws = s.draws := rfl
@[simp] theorem setSt_faults (s : State) (b : Byte) : (s.setSt b).faults = s.faults := rfl
@[simp] theorem setSt_params (s : State) (b : Byte) : (s.setSt b).params = s.params := rfl

/-! ### setMem -/

@[simp] theorem setMem_v (s : State) (m : Memory) : (s.setMem m).v = s.v := rfl
@[simp] theorem setMem_i (s : State) (m : Memory) : (s.setMem m).i = s.i := rfl
@[simp] theorem setMem_pc (s : State) (m : Memory) : (s.setMem m).pc = s.pc := rfl
@[simp] theorem setMem_dt (s : State) (m : Memory) : (s.setMem m).dt = s.dt := rfl
@[simp] theorem setMem_st (s : State) (m : Memory) : (s.setMem m).st = s.st := rfl
@[simp] theorem setMem_stack (s : State) (m : Memory) : (s.setMem m).stack = s.stack := rfl
@[simp] theorem setMem_sp (s : State) (m : Memory) : (s.setMem m).sp = s.sp := rfl
@[simp] theorem setMem_mem (s : State) (m : Memory) : (s.setMem m).mem = m := rfl
@[simp] theorem setMem_disp (s : State) (m : Memory) : (s.setMem m).disp = s.disp := rfl
@[simp] theorem setMem_waiting (s : State) (m : Memory) : (s.setMem m).waiting = s.waiting := rfl
@[simp] theorem setMem_keys (s : State) (m : Memory) : (s.setMem m).keys = s.keys := rfl
@[simp] theorem setMem_host (s : State) (m : Memory) : (s.setMem m).host = s.host := rfl
@[simp] theorem setMem_rand (s : State) (m : Memory) : (s.setMem m).rand = s.rand := rfl
@[simp] theorem setMem_draws (s : State) (m : Memory) : (s.setMem m).draws = s.draws := rfl
@[simp] theorem setMem_faults (s : State) (m : Memory) : (s.setMem m).faults = s.faults := rfl
@[simp] theorem setMem_params (s : State) (m : Memory) : (s.setMem m).params = s.params := rfl

/-! ### setDisp -/

@[simp] theorem setDisp_v (s : State) (d : Display) : (s.setDisp d).v = s.v := rfl
@[simp] theorem setDisp_i (s : State) (d : Display) : (s.setDisp d).i = s.i := rfl
@[simp] theorem setDisp_pc (s : State) (d : Display) : (s.setDisp d).pc = s.pc := rfl
@[simp] theorem setDisp_dt (s : State) (d : Display) : (s.setDisp d).dt = s.dt := rfl
@[simp] theorem setDisp_st (s : State) (d : Display) : (s.setDisp d).st = s.st := rfl
@[simp] theorem setDisp_stack (s : State) (d : Display) : (s.setDisp d).stack = s.stack := rfl
@[simp] theorem setDisp_sp (s : State) (d : Display) : (s.setDisp d).sp = s.sp := rfl
@[simp] theorem setDisp_mem (s : State) (d : Display) : (s.setDisp d).mem = s.mem := rfl
@[simp] theorem setDisp_disp (s : State) (d : Display) : (s.setDisp d).disp = d := rfl
@[simp] theorem setDisp_waiting (s : State) (d : Display) : (s.setDisp d).waiting = s.waiting := rfl
@[simp] theorem setDisp_keys (s : State) (d : Display) : (s.setDisp d).keys = s.keys := rfl
@[simp] theorem setDisp_host (s : State) (d : Display) : (s.setDisp d).host = s.host := rfl
@[simp] theorem setDisp_rand (s : State) (d : Display) : (s.setDisp d).rand = s.rand := rfl
@[simp] theorem setDisp_draws (s : State) (d : Display) : (s.setDisp d).draws = s.draws := rfl
@[simp] theorem setDisp_faults (s : State) (d : Display) : (s.setDisp d).faults = s.faults := rfl
@[simp] theorem setDisp_params (s : State) (d : Display) : (s.setDisp d).params = s.params := rfl

/-! ### setStack -/

@[simp] theorem setStack_v (s : State) (e : Vector Word 16) (n : Fin 17) : (s.setStack e n).v = s.v := rfl
@[simp] theorem setStack_i (s : State) (e : Vector Word 16) (n : Fin 17) : (s.setStack e n).i = s.i := rfl
@[simp] theorem setStack_pc (s : State) (e : Vector Word 16) (n : Fin 17) : (s.setStack e n).pc = s.pc := rfl
@[simp] theorem setStack_dt (s : State) (e : Vector Word 16) (n : Fin 17) : (s.setStack e n).dt = s.dt := rfl
@[simp] theorem setStack_st (s : State) (e : Vector Word 16) (n : Fin 17) : (s.setStack e n).st = s.st := rfl
@[simp] theorem setStack_stack (s : State) (e : Vector Word 16) (n : Fin 17) : (s.setStack e n).stack = e := rfl
@[simp] theorem setStack_sp (s : State) (e : Vector Word 16) (n : Fin 17) : (s.setStack e n).sp = n := rfl
@[simp] theorem setStack_mem (s : State) (e : Vector Word 16) (n : Fin 17) : (s.setStack e n).mem = s.mem := rfl
@[simp] theorem setStack_disp (s : State) (e : Vector Word 16) (n : Fin 17) : (s.setStack e n).disp = s.disp := rfl
@[simp] theorem setStack_waiting (s : State) (e : Vector Word 16) (n : Fin 17) : (s.setStack e n).waiting = s.waiting := rfl
@[simp] theorem setStack_keys (s : State) (e : Vector Word 16) (n : Fin 17) : (s.setStack e n).keys = s.keys := rfl
@[simp] theorem setStack_host (s : State) (e : Vector Word 16) (n : Fin 17) : (s.setStack e n).host = s.host := rfl
@[simp] theorem setStack_rand (s : State) (e : Vector Word 16) (n : Fin 17) : (s.setStack e n).rand = s.rand := rfl
@[simp] theorem setStack_draws (s : State) (e : Vector Word 16) (n : Fin 17) : (s.setStack e n).draws = s.draws := rfl
@[simp] theorem setStack_faults (s : State) (e : Vector Word 16) (n : Fin 17) : (s.setStack e n).faults = s.faults := rfl
@[simp] theorem setStack_params (s : State) (e : Vector Word 16) (n : Fin 17) : (s.setStack e n).params = s.params := rfl

/-! ### setWaiting -/

@[simp] theorem setWaiting_v (s : State) (w : Option Nibble) : (s.setWaiting w).v = s.v := rfl
@[simp] theorem setWaiting_i (s : State) (w : Option Nibble) : (s.setWaiting w).i = s.i := rfl
@[simp] theorem setWaiting_pc (s : State) (w : Option Nibble) : (s.setWaiting w).pc = s.pc := rfl
@[simp] theorem setWaiting_dt (s : State) (w : Option Nibble) : (s.setWaiting w).dt = s.dt := rfl
@[simp] theorem setWaiting_st (s : State) (w : Option Nibble) : (s.setWaiting w).st = s.st := rfl
@[simp] theorem setWaiting_stack (s : State) (w : Option Nibble) : (s.setWaiting w).stack = s.stack := rfl
@[simp] theorem setWaiting_sp (s : State) (w : Option Nibble) : (s.setWaiting w).sp = s.sp := rfl
@[simp] theorem setWaiting_mem (s : State) (w : Option Nibble) : (s.setWaiting w).mem = s.mem := rfl
@[simp] theorem setWaiting_disp (s : State) (w : Option Nibble) : (s.setWaiting w).disp = s.disp := rfl
@[simp] theorem setWaiting_waiting (s : State) (w : Option Nibble) : (s.setWaiting w).waiting = w := rfl
@[simp] theorem setWaiting_keys (s : State) (w : Option Nibble) : (s.setWaiting w).keys = s.keys := rfl
@[simp] theorem setWaiting_host (s : State) (w : Option Nibble) : (s.setWaiting w).host = s.host := rfl
@[simp] theorem setWaiting_rand (s : State) (w : Option Nibble) : (s.setWaiting w).rand = s.rand := rfl
@[simp] theorem setWaiting_draws (s : State) (w : Option Nibble) : (s.setWaiting w).draws = s.draws := rfl
@[simp] theorem setWaiting_faults (s : State) (w : Option Nibble) : (s.setWaiting w).faults = s.faults := rfl
@[simp] theorem setWaiting_params (s : State) (w : Option Nibble) : (s.setWaiting w).params = s.params := rfl

/-! ### setKeys -/

@[simp] theorem setKeys_v (s : State) (ks : Vector Bool 16) : (s.setKeys ks).v = s.v := rfl
@[simp] theorem setKeys_i (s : State) (ks : Vector Bool 16) : (s.setKeys ks).i = s.i := rfl
@[simp] theorem setKeys_pc (s : State) (ks : Vector Bool 16) : (s.setKeys ks).pc = s.pc := rfl
@[simp] theorem setKeys_dt (s : State) (ks : Vector Bool 16) : (s.setKeys ks).dt = s.dt := rfl
@[simp] theorem setKeys_st (s : State) (ks : Vector Bool 16) : (s.setKeys ks).st = s.st := rfl
@[simp] theorem setKeys_stack (s : State) (ks : Vector Bool 16) : (s.setKeys ks).stack = s.stack := rfl
@[simp] theorem setKeys_sp (s : State) (ks : Vector Bool 16) : (s.setKeys ks).sp = s.sp := rfl
@[simp] theorem setKeys_mem (s : State) (ks : Vector Bool 16) : (s.setKeys ks).mem = s.mem := rfl
@[simp] theorem setKeys_disp (s : State) (ks : Vector Bool 16) : (s.setKeys ks).disp = s.disp := rfl
@[simp] theorem setKeys_waiting (s : State) (ks : Vector Bool 16) : (s.setKeys ks).waiting = s.waiting := rfl
@[simp] theorem setKeys_keys (s : State) (ks : Vector Bool 16) : (s.setKeys ks).keys = ks := rfl
@[simp] theorem setKeys_host (s : State) (ks : Vector Bool 16) : (s.setKeys ks).host = s.host := rfl
@[simp] theorem setKeys_rand (s : State) (ks : Vector Bool 16) : (s.setKeys ks).rand = s.rand := rfl
@[simp] theorem setKeys_draws (s : State) (ks : Vector Bool 16) : (s.setKeys ks).draws = s.draws := rfl
@[simp] theorem setKeys_faults (s : State) (ks : Vector Bool 16) : (s.setKeys ks).faults = s.faults := rfl
@[simp] theorem setKeys_params (s : State) (ks : Vector Bool 16) : (s.setKeys ks).params = s.params := rfl

/-! ### setHost -/

@[simp] theorem setHost_v (s : State) (es : List HostEvent) : (s.setHost es).v = s.v := rfl
@[simp] theorem setHost_i (s : State) (es : List HostEvent) : (s.setHost es).i = s.i := rfl
@[simp] theorem setHost_pc (s : State) (es : List HostEvent) : (s.setHost es).pc = s.pc := rfl
@[simp] theorem setHost_dt (s : State) (es : List HostEvent) : (s.setHost es).dt = s.dt := rfl
@[simp] theorem setHost_st (s : State) (es : List HostEvent) : (s.setHost es).st = s.st := rfl
@[simp] theorem setHost_stack (s : State) (es : List HostEvent) : (s.setHost es).stack = s.stack := rfl
@[simp] theorem setHost_sp (s : State) (es : List HostEvent) : (s.setHost es).sp = s.sp := rfl
@[simp] theorem setHost_mem (s : State) (es : List HostEvent) : (s.setHost es).mem = s.mem := rfl
@[simp] theorem setHost_disp (s : State) (es : List HostEvent) : (s.setHost es).disp = s.disp := rfl
@[simp] theorem setHost_waiting (s : State) (es : List HostEvent) : (s.setHost es).waiting = s.waiting := rfl
@[simp] theorem setHost_keys (s : State) (es : List HostEvent) : (s.setHost es).keys = s.keys := rfl
@[simp] theorem setHost_host (s : State) (es : List HostEvent) : (s.setHost es).host = es := rfl
@[simp] theorem setHost_rand (s : State) (es : List HostEvent) : (s.setHost es).rand = s.rand := rfl
@[simp] theorem setHost_draws (s : State) (es : List HostEvent) : (s.setHost es).draws = s.draws := rfl
@[simp] theorem setHost_faults (s : State) (es : List HostEvent) : (s.setHost es).faults = s.faults := rfl
@[simp] theorem setHost_params (s : State) (es : List HostEvent) : (s.setHost es).params = s.params := rfl

/-! ### setRandom -/

@[simp] theorem setRandom_v (s : State) (bs : List Byte) (n : Nat) : (s.setRandom bs n).v = s.v := rfl
@[simp] theorem setRandom_i (s : State) (bs : List Byte) (n : Nat) : (s.setRandom bs n).i = s.i := rfl
@[simp] theorem setRandom_pc (s : State) (bs : List Byte) (n : Nat) : (s.setRandom bs n).pc = s.pc := rfl
@[simp] theorem setRandom_dt (s : State) (bs : List Byte) (n : Nat) : (s.setRandom bs n).dt = s.dt := rfl
@[simp] theorem setRandom_st (s : State) (bs : List Byte) (n : Nat) : (s.setRandom bs n).st = s.st := rfl
@[simp] theorem setRandom_stack (s : State) (bs : List Byte) (n : Nat) : (s.setRandom bs n).stack = s.stack := rfl
@[simp] theorem setRandom_sp (s : State) (bs : List Byte) (n : Nat) : (s.setRandom bs n).sp = s.sp := rfl
@[simp] theorem setRandom_mem (s : State) (bs : List Byte) (n : Nat) : (s.setRandom bs n).mem = s.mem := rfl
@[simp] theorem setRandom_disp (s : State) (bs : List Byte) (n : Nat) : (s.setRandom bs n).disp = s.disp := rfl
@[simp] theorem setRandom_waiting (s : State) (bs : List Byte) (n : Nat) : (s.setRandom bs n).waiting = s.waiting := rfl
@[simp] theorem setRandom_keys (s : State) (bs : List Byte) (n : Nat) : (s.setRandom bs n).keys = s.keys := rfl
@[simp] theorem setRandom_host (s : State) (bs : List Byte) (n : Nat) : (s.setRandom bs n).host = s.host := rfl
@[simp] theorem setRandom_rand (s : State) (bs : List Byte) (n : Nat) : (s.setRandom bs n).rand = bs := rfl
@[simp] theorem setRandom_draws (s : State) (bs : List Byte) (n : Nat) : (s.setRandom bs n).draws = n := rfl
@[simp] theorem setRandom_faults (s : State) (bs : List Byte) (n : Nat) : (s.setRandom bs n).faults = s.faults := rfl
@[simp] theorem setRandom_params (s : State) (bs : List Byte) (n : Nat) : (s.setRandom bs n).params = s.params := rfl

/-! ### addFault -/

@[simp] theorem addFault_v (s : State) (r : Fault) : (s.addFault r).v = s.v := rfl
@[simp] theorem addFault_i (s : State) (r : Fault) : (s.addFault r).i = s.i := rfl
@[simp] theorem addFault_pc (s : State) (r : Fault) : (s.addFault r).pc = s.pc := rfl
@[simp] theorem addFault_dt (s : State) (r : Fault) : (s.addFault r).dt = s.dt := rfl
@[simp] theorem addFault_st (s : State) (r : Fault) : (s.addFault r).st = s.st := rfl
@[simp] theorem addFault_stack (s : State) (r : Fault) : (s.addFault r).stack = s.stack := rfl
@[simp] theorem addFault_sp (s : State) (r : Fault) : (s.addFault r).sp = s.sp := rfl
@[simp] theorem addFault_mem (s : State) (r : Fault) : (s.addFault r).mem = s.mem := rfl
@[simp] theorem addFault_disp (s : State) (r : Fault) : (s.addFault r).disp = s.disp := rfl
@[simp] theorem addFault_waiting (s : State) (r : Fault) : (s.addFault r).waiting = s.waiting := rfl
@[simp] theorem addFault_keys (s : State) (r : Fault) : (s.addFault r).keys = s.keys := rfl
@[simp] theorem addFault_host (s : State) (r : Fault) : (s.addFault r).host = s.host := rfl
@[simp] theorem addFault_rand (s : State) (r : Fault) : (s.addFault r).rand = s.rand := rfl
@[simp] theorem addFault_draws (s : State) (r : Fault) : (s.addFault r).draws = s.draws := rfl
@[simp] theorem addFault_faults (s : State) (r : Fault) : (s.addFault r).faults = r :: s.faults := rfl
@[simp] theorem addFault_params (s : State) (r : Fault) : (s.addFault r).params = s.params := rfl

/-! ### Reads after an update -/

theorem getV_setV (s : State) (x y : Nibble) (b : Byte) :
    (s.setV x b).getV y = if y = x then b else s.getV y := by
  have hx := x.isLt
  have hy := y.isLt
  simp only [getV, setV, Vector.getElem_set]
  by_cases h : y = x
  · simp [h]
  · have : x.toNat ≠ y.toNat := fun e => h (BitVec.eq_of_toNat_eq e.symm)
    simp [h, this]

@[simp] theorem getV_setV_self (s : State) (x : Nibble) (b : Byte) : (s.setV x b).getV x = b := by simp [getV_setV]

theorem getV_setV_of_ne (s : State) {x y : Nibble} (b : Byte) (h : y ≠ x) : (s.setV x b).getV y = s.getV y := by
  simp [getV_setV, h]

theorem getV_setVF (s : State) (y : Nibble) (b : Byte) : (s.setVF b).getV y = if y = 0xF then b else s.getV y :=
  getV_setV s 0xF y b

theorem keyDown_setKeys (s : State) (ks : Vector Bool 16) (k : Nibble) : (s.setKeys ks).keyDown k = ks[k.toNat] := rfl

@[simp] theorem readByte_setV (s : State) (x : Nibble) (b : Byte) (k : Nat) : (s.setV x b).readByte k = s.readByte k := rfl
@[simp] theorem keyDown_setV (s : State) (x : Nibble) (b : Byte) (k : Nibble) : (s.setV x b).keyDown k = s.keyDown k := rfl
@[simp] theorem getV_setI (s : State) (a : Word) (y : Nibble) : (s.setI a).getV y = s.getV y := rfl
@[simp] theorem readByte_setI (s : State) (a : Word) (k : Nat) : (s.setI a).readByte k = s.readByte k := rfl
@[simp] theorem keyDown_setI (s : State) (a : Word) (k : Nibble) : (s.setI a).keyDown k = s.keyDown k := rfl
@[simp] theorem getV_setPc (s : State) (a : Word) (y : Nibble) : (s.setPc a).getV y = s.getV y := rfl
@[simp] theorem readByte_setPc (s : State) (a : Word) (k : Nat) : (s.setPc a).readByte k = s.readByte k := rfl
@[simp] theorem keyDown_setPc (s : State) (a : Word) (k : Nibble) : (s.setPc a).keyDown k = s.keyDown k := rfl
@[simp] theorem getV_setDt (s : State) (b : Byte) (y : Nibble) : (s.setDt b).getV y = s.getV y := rfl
@[simp] theorem readByte_setDt (s : State) (b : Byte) (k : Nat) : (s.setDt b).readByte k = s.readByte k := rfl
@[simp] theorem keyDown_setDt (s : State) (b : Byte) (k : Nibble) : (s.setDt b).keyDown k = s.keyDown k := rfl
@[simp] theorem getV_setSt (s : State) (b : Byte) (y : Nibble) : (s.setSt b).getV y = s.getV y := rfl
@[simp] theorem readByte_setSt (s : State) (b : Byte) (k : Nat) : (s.setSt b).readByte k = s.readByte k := rfl
@[simp] theorem keyDown_setSt (s : State) (b : Byte) (k : Nibble) : (s.setSt b).keyDown k = s.keyDown k := rfl
@[simp] theorem getV_setMem (s : State) (m : Memory) (y : Nibble) : (s.setMem m).getV y = s.getV y := rfl
@[simp] theorem keyDown_setMem (s : State) (m : Memory) (k : Nibble) : (s.setMem m).keyDown k = s.keyDown k := rfl
@[simp] theorem getV_setDisp (s : State) (d : Display) (y : Nibble) : (s.setDisp d).getV y = s.getV y := rfl
@[simp] theorem readByte_setDisp (s : State) (d : Display) (k : Nat) : (s.setDisp d).readByte k = s.readByte k := rfl
@[simp] theorem keyDown_setDisp (s : State) (d : Display) (k : Nibble) : (s.setDisp d).keyDown k = s.keyDown k := rfl
@[simp] theorem getV_setStack (s : State) (e : Vector Word 16) (n : Fin 17) (y : Nibble) : (s.setStack e n).getV y = s.getV y := rfl
@[simp] theorem readByte_setStack (s : State) (e : Vector Word 16) (n : Fin 17) (k : Nat) : (s.setStack e n).readByte k = s.readByte k := rfl
@[simp] theorem keyDown_setStack (s : State) (e : Vector Word 16) (n : Fin 17) (k : Nibble) : (s.setStack e n).keyDown k = s.keyDown k := rfl
@[simp] theorem getV_setWaiting (s : State) (w : Option Nibble) (y : Nibble) : (s.setWaiting w).getV y = s.getV y := rfl
@[simp] theorem readByte_setWaiting (s : State) (w : Option Nibble) (k : Nat) : (s.setWaiting w).readByte k = s.readByte k := rfl
@[simp] theorem keyDown_setWaiting (s : State) (w : Option Nibble) (k : Nibble) : (s.setWaiting w).keyDown k = s.keyDown k := rfl
@[simp] theorem getV_setKeys (s : State) (ks : Vector Bool 16) (y : Nibble) : (s.setKeys ks).getV y = s.getV y := rfl
@[simp] theorem readByte_setKeys (s : State) (ks : Vector Bool 16) (k : Nat) : (s.setKeys ks).readByte k = s.readByte k := rfl
@[simp] theorem getV_setHost (s : State) (es : List HostEvent) (y : Nibble) : (s.setHost es).getV y = s.getV y := rfl
@[simp] theorem readByte_setHost (s : State) (es : List HostEvent) (k : Nat) : (s.setHost es).readByte k = s.readByte k := rfl
@[simp] theorem keyDown_setHost (s : State) (es : List HostEvent) (k : Nibble) : (s.setHost es).keyDown k = s.keyDown k := rfl
@[simp] theorem getV_setRandom (s : State) (bs : List Byte) (n : Nat) (y : Nibble) : (s.setRandom bs n).getV y = s.getV y := rfl
@[simp] theorem readByte_setRandom (s : State) (bs : List Byte) (n : Nat) (k : Nat) : (s.setRandom bs n).readByte k = s.readByte k := rfl
@[simp] theorem keyDown_setRandom (s : State) (bs : List Byte) (n : Nat) (k : Nibble) : (s.setRandom bs n).keyDown k = s.keyDown k := rfl
@[simp] theorem getV_addFault (s : State) (r : Fault) (y : Nibble) : (s.addFault r).getV y = s.getV y := rfl
@[simp] theorem readByte_addFault (s : State) (r : Fault) (k : Nat) : (s.addFault r).readByte k = s.readByte k := rfl
@[simp] theorem keyDown_addFault (s : State) (r : Fault) (k : Nibble) : (s.addFault r).keyDown k = s.keyDown k := rfl
@[simp] theorem readByte_setMem (s : State) (m : Memory) (k : Nat) : (s.setMem m).readByte k = m.read k := rfl

/-! ### setVF is setV -/

@[simp] theorem setVF_i (s : State) (b : Byte) : (s.setVF b).i = s.i := rfl
@[simp] theorem setVF_pc (s : State) (b : Byte) : (s.setVF b).pc = s.pc := rfl
@[simp] theorem setVF_dt (s : State) (b : Byte) : (s.setVF b).dt = s.dt := rfl
@[simp] theorem setVF_st (s : State) (b : Byte) : (s.setVF b).st = s.st := rfl
@[simp] theorem setVF_stack (s : State) (b : Byte) : (s.setVF b).stack = s.stack := rfl
@[simp] theorem setVF_sp (s : State) (b : Byte) : (s.setVF b).sp = s.sp := rfl
@[simp] theorem setVF_mem (s : State) (b : Byte) : (s.setVF b).mem = s.mem := rfl
@[simp] theorem setVF_disp (s : State) (b : Byte) : (s.setVF b).disp = s.disp := rfl
@[simp] theorem setVF_waiting (s : State) (b : Byte) : (s.setVF b).waiting = s.waiting := rfl
@[simp] theorem setVF_keys (s : State) (b : Byte) : (s.setVF b).keys = s.keys := rfl
@[simp] theorem setVF_host (s : State) (b : Byte) : (s.setVF b).host = s.host := rfl
@[simp] theorem setVF_rand (s : State) (b : Byte) : (s.setVF b).rand = s.rand := rfl
@[simp] theorem setVF_draws (s : State) (b : Byte) : (s.setVF b).draws = s.draws := rfl
@[simp] theorem setVF_faults (s : State) (b : Byte) : (s.setVF b).faults = s.faults := rfl
@[simp] theorem setVF_params (s : State) (b : Byte) : (s.setVF b).params = s.params := rfl
@[simp] theorem readByte_setVF (s : State) (b : Byte) (k : Nat) : (s.setVF b).readByte k = s.readByte k := rfl
@[simp] theorem keyDown_setVF (s : State) (b : Byte) (k : Nibble) : (s.setVF b).keyDown k = s.keyDown k := rfl

end Sys2Proof.Machine.State
end

