-- ==== Sys2Proof/Laws/Ops.lean ====
section
/-! SUPPORT. For each shared operation, once, everything it can do: what it answers, what it writes and what it leaves. -/

namespace Sys2Proof.Machine

/-! ### pc -/

@[simp] theorem State.advance_eq (s : State) : s.advance = s.setPc (s.pc + 2) := rfl

theorem State.toNat_advance (s : State) : s.advance.pc.toNat = (s.pc.toNat + 2) % 65536 := by
  simp [BitVec.toNat_add]

/-- A skip writes pc and nothing else (R110). -/
theorem State.skipIf_eq (s : State) (c : Bool) : s.skipIf c = s.setPc (s.pc + if c then 2 else 0) := by
  cases c <;> simp [State.skipIf, State.setPc]

theorem State.toNat_skipIf (s : State) (c : Bool) :
    (s.skipIf c).pc.toNat = (s.pc.toNat + if c then 2 else 0) % 65536 := by
  have := s.pc.isLt
  cases c
  · simp [State.skipIf_eq]; omega
  · simp [State.skipIf_eq, BitVec.toNat_add]

theorem toNat_addrOf (nnn : Addr12) : (addrOf nnn).toNat = nnn.toNat := by
  have := nnn.isLt
  simp only [addrOf, BitVec.toNat_setWidth]
  omega

theorem toNat_wide (b : Byte) : (wide b).toNat = b.toNat := by
  have := b.isLt
  simp only [wide, BitVec.toNat_setWidth]
  omega

/-! ### Memory -/

/-- What a store of bytes leaves to read. -/
theorem State.readByte_storeBytes (s : State) (a k : Nat) (bs : List Byte) :
    (s.storeBytes a bs).readByte k = if h : a ≤ k ∧ k < a + bs.length then bs[k - a]'(by omega) else s.readByte k :=
  Memory.read_writeBytes s.mem a k bs

/-- A store touches memory only. -/
theorem State.storeBytes_eq (s : State) (a : Nat) (bs : List Byte) :
    s.storeBytes a bs = s.setMem (s.mem.writeBytes a bs) := rfl

/-- The check of a data access (R51): none exactly when no byte is accessed or the last one is an address. -/
theorem State.dataFault_eq_none (s : State) (op : Word) (n : Nat) :
    s.dataFault op n = none ↔ n = 0 ∨ s.i.toNat + n - 1 < 4096 := by
  unfold State.dataFault State.dataAddr Config.memSize
  split <;> simp_all <;> omega

/-- Where the check fails, the fault has what R220 says is reported. -/
theorem State.dataFault_eq_some (s : State) (op : Word) (n : Nat) (h : 0 < n) (hi : 4096 ≤ s.i.toNat + n - 1) :
    s.dataFault op n = some (.memRangeData op s.i (max s.i.toNat 4096) (s.i.toNat + n - 1)) := by
  unfold State.dataFault State.dataAddr Config.memSize
  rw [if_neg (by omega), Nat.add_sub_assoc h]

theorem keyFault_eq_none (op : Word) (k : Byte) : keyFault op k = none ↔ k.toNat < 16 := by
  unfold keyFault; split <;> simp_all

theorem keyFault_eq_some (op : Word) (k : Byte) (h : 15 < k.toNat) : keyFault op k = some (.keyRange op k) := by
  unfold keyFault; rw [if_neg (by omega)]

/-- A checked instruction answers its effect or its one fault (R226), never a refusal. -/
theorem checked_eq_next {f : Option Fault} {t u : State} : checked f t = .next u ↔ f = none ∧ t = u := by
  cases f <;> simp [checked, raise]

theorem checked_eq_fault {f : Option Fault} {t : State} {r : Fault} : checked f t = .fault r ↔ f = some r := by
  cases f <;> simp [checked, raise]

theorem checked_ne_refused {f : Option Fault} {t : State} {r : Refusal} : checked f t ≠ .refused r := by
  cases f <;> simp [checked, raise]

/-! ### The call stack -/

/-- A push succeeds exactly below 16 entries. -/
theorem State.push_eq_none (s : State) (w : Word) : s.push w = none ↔ s.sp.val = 16 := by
  have := s.sp.isLt
  unfold State.push; split <;> simp <;> omega

/-- What a push does: the entry at the count, one entry more, nothing else. -/
theorem State.push_eq_some {s t : State} {w : Word} (h : s.push w = some t) :
    ∃ h16 : s.sp.val < 16, t = s.setStack (s.stack.set s.sp.val w h16) ⟨s.sp.val + 1, by omega⟩ := by
  unfold State.push at h
  split at h
  · rename_i h16; exact ⟨h16, (Option.some.inj h).symm⟩
  · cases h

/-- A pop succeeds exactly on a non-empty stack. -/
theorem State.pop_eq_none (s : State) : s.pop = none ↔ s.sp.val = 0 := by
  unfold State.pop; split <;> simp <;> omega

/-- What a pop does: the top entry out, one entry less, the entries as they were. -/
theorem State.pop_eq_some {s t : State} {w : Word} (h : s.pop = some (w, t)) :
    ∃ h0 : 0 < s.sp.val, w = s.stack[s.sp.val - 1]'(by omega) ∧
      t = s.setStack s.stack ⟨s.sp.val - 1, by omega⟩ := by
  unfold State.pop at h
  split at h
  · rename_i h0
    simp only [Option.some.injEq, Prod.mk.injEq] at h
    exact ⟨h0, h.1.symm, h.2.symm⟩
  · cases h

/-! ### Faults and the driver -/

/-- The driver answers a reported fault with the end of the run or with the report kept (R225). -/
theorem reportFault_eq_next {r : Fault} {s t : State} :
    reportFault r s = .next t ↔ s.params.onFault = .continueRun ∧ t = s.addFault r := by
  cases h : s.params.onFault <;> simp [reportFault, h, eq_comm]

theorem reportFault_eq_fault {r q : Fault} {s : State} :
    reportFault r s = .fault q ↔ s.params.onFault = .haltRun ∧ q = r := by
  cases h : s.params.onFault <;> simp [reportFault, h, eq_comm]

theorem reportFault_ne_refused {r : Fault} {s : State} {q : Refusal} : reportFault r s ≠ .refused q := by
  unfold reportFault; split <;> simp

/-! ### Registers and memory blocks -/

/-- A register number written as its Nat. -/
theorem nibble_ofNat_toNat (y : Nibble) : BitVec.ofNat 4 y.toNat = y := by simp

/-- The block `V0` .. `Vx` (R56): its length and its entries. -/
@[simp] theorem State.length_regBlock (s : State) (x : Nibble) : (s.regBlock x).length = x.toNat + 1 := by
  simp [State.regBlock]

theorem State.getElem_regBlock (s : State) (x : Nibble) (j : Nat) (h : j < (s.regBlock x).length) :
    (s.regBlock x)[j] = s.getV (BitVec.ofNat 4 j) := by
  simp [State.regBlock]

/-- The bytes at `I` (R56): their number and each of them. -/
@[simp] theorem State.length_bytesAtI (s : State) (n : Nat) : (s.bytesAtI n).length = n := by simp [State.bytesAtI]

theorem State.getElem_bytesAtI (s : State) (n j : Nat) (h : j < (s.bytesAtI n).length) :
    (s.bytesAtI n)[j] = s.readByte (s.dataAddr j) := by
  simp [State.bytesAtI]

@[simp] theorem length_bcdDigits (b : Byte) : (bcdDigits b).length = 3 := rfl

@[simp] theorem State.dataAddr_setV (s : State) (x : Nibble) (b : Byte) (k : Nat) :
    (s.setV x b).dataAddr k = s.dataAddr k := rfl

/-- A load of a register block writes registers only: the state after it is the old one with another register file. -/
theorem State.loadRegs_eq_withV (s : State) (x : Nibble) : ∃ v, s.loadRegs x = { s with v := v } := by
  unfold State.loadRegs
  induction List.range (x.toNat + 1) generalizing s with
  | nil => exact ⟨s.v, rfl⟩
  | cons j js ih => exact ih (s.setV (BitVec.ofNat 4 j) (s.readByte (s.dataAddr j)))

/-! ### The key wait -/

/-- The wait touches the one register and the outside's side only. -/
theorem waitForKey_cases (x : Nibble) (s : State) :
    (∃ k ks es, awaitKey s.host s.keys = (some k, ks, es) ∧
      waitForKey x s = (((s.setV x (k.setWidth 8)).setKeys ks).setHost es).setWaiting none) ∨
    (∃ ks es, awaitKey s.host s.keys = (none, ks, es) ∧
      waitForKey x s = ((s.setKeys ks).setHost es).setWaiting (some x)) := by
  unfold waitForKey
  rcases awaitKey s.host s.keys with ⟨_ | k, ks, es⟩
  · exact .inr ⟨ks, es, rfl, rfl⟩
  · exact .inl ⟨k, ks, es, rfl, rfl⟩

/-- The level of a key after an event of key `k` (R241). -/
theorem keyLevel_getElem (ks : Vector Bool 16) (k j : Nibble) (down : Bool) :
    (keyLevel ks k down)[j.toNat]'j.isLt = if j = k then down else ks[j.toNat]'j.isLt := by
  have hj := j.isLt
  simp only [keyLevel, Vector.getElem_set]
  by_cases h : j = k
  · simp [h]
  · have : k.toNat ≠ j.toNat := fun e => h (BitVec.eq_of_toNat_eq e.symm)
    simp [h, this]

/-! ### The cycle and the step -/

/-- Fetch answers the word of the two bytes at pc, or the fetch fault (R53). -/
theorem fetch_eq_ok {s : State} {op : Word} :
    fetch s = .ok op ↔
      s.pc.toNat + 1 < 4096 ∧ op = wordOfBytes (s.readByte s.pc.toNat) (s.readByte (s.pc.toNat + 1)) := by
  unfold fetch Config.memSize; split <;> simp_all [eq_comm]

theorem fetch_eq_error {s : State} {r : Fault} :
    fetch s = .error r ↔ 4096 ≤ s.pc.toNat + 1 ∧ r = .memRangeFetch s.pc := by
  unfold fetch Config.memSize
  split
  · simp; omega
  · simp only [Except.error.injEq, eq_comm]; constructor
    · exact fun h => ⟨by omega, h⟩
    · exact fun h => h.2

/-- Everything a step can do: a pending wait goes on, a cycle runs, or the outside makes its next move. -/
theorem step_cases (s : State) :
    (∃ x, s.waiting = some x ∧ step s = .next (waitForKey x s)) ∨
    (s.waiting = none ∧ s.host = [] ∧ step s = cycle s) ∨
    (∃ e es, s.waiting = none ∧ s.host = e :: es ∧ step s = hostMove e (s.setHost es)) := by
  unfold step turn
  rcases hw : s.waiting with _ | x
  · rcases hh : s.host with _ | ⟨e, es⟩
    · exact .inr (.inl ⟨rfl, rfl, rfl⟩)
    · exact .inr (.inr ⟨e, es, rfl, rfl, rfl⟩)
  · exact .inl ⟨x, rfl, rfl⟩

/-- A cycle that answers a next state: a fetch fault or a fault of execute with the driver going on, an unrecognised opcode
ignored, or an instruction that completes (R70, R79, R225). -/
theorem cycle_eq_next {s t : State} (h : cycle s = .next t) :
    (∃ r, fetch s = .error r ∧ s.params.onFault = .continueRun ∧ t = s.addFault r) ∨
    (∃ op r, fetch s = .ok op ∧ execute op s.advance = .fault r ∧ s.params.onFault = .continueRun ∧
      t = s.advance.addFault r) ∨
    (∃ op, fetch s = .ok op ∧ decodeWord op = none ∧ t = s.advance) ∨
    (∃ op i, fetch s = .ok op ∧ decodeWord op = some i ∧ exec i s.advance = .next t) := by
  unfold cycle at h
  split at h
  · rename_i r hf
    obtain ⟨hp, rfl⟩ := reportFault_eq_next.mp h
    exact .inl ⟨r, hf, hp, rfl⟩
  · rename_i op hf
    split at h
    · rename_i u hx
      cases h
      unfold execute at hx
      split at hx
      · rename_i i hd; exact .inr (.inr (.inr ⟨op, i, hf, hd, hx⟩))
      · rename_i hd
        unfold unrecognised raise at hx
        split at hx
        · cases hx
        · cases hx; exact .inr (.inr (.inl ⟨op, hf, hd, rfl⟩))
    · rename_i r hx
      obtain ⟨hp, rfl⟩ := reportFault_eq_next.mp h
      exact .inr (.inl ⟨op, r, hf, hx, hp, rfl⟩)
    · cases h

end Sys2Proof.Machine
end

