-- ==== Sys2Proof/Laws/PerInstr.lean ====
section
/-! SUPPORT. Per instruction: the encoder's word matches the instruction's own row of the opcode map (30_encoding.md R76), one
lemma for each constructor. -/

namespace Sys2Proof.Laws.EncodeMatchesRow

/-- The encoding of `i` has the fixed bits of `i`'s row of R76. -/
def Statement (i : Instr) : Prop := ∃ row, opcodeMap[i.rowNumber]? = some row ∧ encode i &&& row.mask = row.value

/-- The mask of formats A, XK and XYN keeps the family nibble. -/
theorem mask_A (h : Nibble) (nnn : Addr12) : (h ++ nnn : Word) &&& 0xF000 = h ++ 0#12 := by
  apply BitVec.eq_of_getLsbD_eq
  intro i hi
  simp only [BitVec.getLsbD_and, BitVec.getLsbD_append]
  interval_cases i <;> simp

theorem mask_XK (h x : Nibble) (kk : Byte) : (h ++ x ++ kk : Word) &&& 0xF000 = h ++ 0#12 := by
  apply BitVec.eq_of_getLsbD_eq
  intro i hi
  simp only [BitVec.getLsbD_and, BitVec.getLsbD_append]
  interval_cases i <;> simp

theorem mask_XYN (h x y n : Nibble) : (h ++ x ++ y ++ n : Word) &&& 0xF000 = h ++ 0#12 := by
  apply BitVec.eq_of_getLsbD_eq
  intro i hi
  simp only [BitVec.getLsbD_and, BitVec.getLsbD_append]
  interval_cases i <;> simp

/-- The mask of format XY keeps the family nibble and the low nibble. -/
theorem mask_XY (h x y n : Nibble) : (h ++ x ++ y ++ n : Word) &&& 0xF00F = h ++ 0#8 ++ n := by
  apply BitVec.eq_of_getLsbD_eq
  intro i hi
  simp only [BitVec.getLsbD_and, BitVec.getLsbD_append]
  interval_cases i <;> simp

/-- The mask of format X keeps the family nibble and the low byte. -/
theorem mask_X (h x : Nibble) (kk : Byte) : (h ++ x ++ kk : Word) &&& 0xF0FF = h ++ 0#4 ++ kk := by
  apply BitVec.eq_of_getLsbD_eq
  intro i hi
  simp only [BitVec.getLsbD_and, BitVec.getLsbD_append]
  interval_cases i <;> simp

theorem cls : Statement .cls := ⟨_, rfl, rfl⟩

theorem ret : Statement .ret := ⟨_, rfl, rfl⟩

theorem jp (nnn : Addr12) : Statement (.jp nnn) := ⟨_, rfl, mask_A _ nnn⟩

theorem call (nnn : Addr12) : Statement (.call nnn) := ⟨_, rfl, mask_A _ nnn⟩

theorem seVxKk (x : Nibble) (kk : Byte) : Statement (.seVxKk x kk) := ⟨_, rfl, mask_XK _ x kk⟩

theorem sneVxKk (x : Nibble) (kk : Byte) : Statement (.sneVxKk x kk) := ⟨_, rfl, mask_XK _ x kk⟩

theorem seVxVy (x y : Nibble) : Statement (.seVxVy x y) := ⟨_, rfl, mask_XY _ x y _⟩

theorem ldVxKk (x : Nibble) (kk : Byte) : Statement (.ldVxKk x kk) := ⟨_, rfl, mask_XK _ x kk⟩

theorem addVxKk (x : Nibble) (kk : Byte) : Statement (.addVxKk x kk) := ⟨_, rfl, mask_XK _ x kk⟩

theorem ldVxVy (x y : Nibble) : Statement (.ldVxVy x y) := ⟨_, rfl, mask_XY _ x y _⟩

theorem orVxVy (x y : Nibble) : Statement (.orVxVy x y) := ⟨_, rfl, mask_XY _ x y _⟩

theorem andVxVy (x y : Nibble) : Statement (.andVxVy x y) := ⟨_, rfl, mask_XY _ x y _⟩

theorem xorVxVy (x y : Nibble) : Statement (.xorVxVy x y) := ⟨_, rfl, mask_XY _ x y _⟩

theorem addVxVy (x y : Nibble) : Statement (.addVxVy x y) := ⟨_, rfl, mask_XY _ x y _⟩

theorem subVxVy (x y : Nibble) : Statement (.subVxVy x y) := ⟨_, rfl, mask_XY _ x y _⟩

theorem shrVx (x y : Nibble) : Statement (.shrVx x y) := ⟨_, rfl, mask_XY _ x y _⟩

theorem subnVxVy (x y : Nibble) : Statement (.subnVxVy x y) := ⟨_, rfl, mask_XY _ x y _⟩

theorem shlVx (x y : Nibble) : Statement (.shlVx x y) := ⟨_, rfl, mask_XY _ x y _⟩

theorem sneVxVy (x y : Nibble) : Statement (.sneVxVy x y) := ⟨_, rfl, mask_XY _ x y _⟩

theorem ldINnn (nnn : Addr12) : Statement (.ldINnn nnn) := ⟨_, rfl, mask_A _ nnn⟩

theorem jpV0 (nnn : Addr12) : Statement (.jpV0 nnn) := ⟨_, rfl, mask_A _ nnn⟩

theorem rnd (x : Nibble) (kk : Byte) : Statement (.rnd x kk) := ⟨_, rfl, mask_XK _ x kk⟩

theorem drw (x y n : Nibble) : Statement (.drw x y n) := ⟨_, rfl, mask_XYN _ x y n⟩

theorem skp (x : Nibble) : Statement (.skp x) := ⟨_, rfl, mask_X _ x _⟩

theorem sknp (x : Nibble) : Statement (.sknp x) := ⟨_, rfl, mask_X _ x _⟩

theorem ldVxDt (x : Nibble) : Statement (.ldVxDt x) := ⟨_, rfl, mask_X _ x _⟩

theorem ldVxK (x : Nibble) : Statement (.ldVxK x) := ⟨_, rfl, mask_X _ x _⟩

theorem ldDtVx (x : Nibble) : Statement (.ldDtVx x) := ⟨_, rfl, mask_X _ x _⟩

theorem ldStVx (x : Nibble) : Statement (.ldStVx x) := ⟨_, rfl, mask_X _ x _⟩

theorem addIVx (x : Nibble) : Statement (.addIVx x) := ⟨_, rfl, mask_X _ x _⟩

theorem ldFVx (x : Nibble) : Statement (.ldFVx x) := ⟨_, rfl, mask_X _ x _⟩

theorem ldBVx (x : Nibble) : Statement (.ldBVx x) := ⟨_, rfl, mask_X _ x _⟩

theorem ldMemVx (x : Nibble) : Statement (.ldMemVx x) := ⟨_, rfl, mask_X _ x _⟩

theorem ldVxMem (x : Nibble) : Statement (.ldVxMem x) := ⟨_, rfl, mask_X _ x _⟩

end Sys2Proof.Laws.EncodeMatchesRow
end

