-- ==== Sys2Proof/Tests/Slice0.lean ====
section
/-! SUPPORT. The model's own tests. Expected values are those of 95_test_vectors.md (the vector's id stands beside each
test) or written out from the encoding tables of 30_encoding.md. The last part shows, for every obligation with
hypotheses, states and operands that meet them, at the ends of their ranges. -/

open Sys2Proof Sys2Proof.Machine Sys2Proof.Claims

namespace Sys2Proof.Tests

/-! ## Helpers -/

/-- One cycle from `s` with `op` at its pc. -/
def cycleOf (op : Nat) (s : State) : Result := step (s.withFetchWord 16 op)

/-- `f` of the next state, `none` at a fault or a refusal. -/
def seen {α : Type} (f : State → α) : Result → Option α
  | .next t => some (f t)
  | _ => none

/-- The fault of a step, if it is one. -/
def faulted : Result → Option Fault
  | .fault r => some r
  | _ => none

/-- Registers set one after the other in the reset state. -/
def regs (vs : List (Nibble × Byte)) : State := vs.foldl (fun s p => s.setV p.1 p.2) State.reset

/-- `s` with only the listed keys down. -/
def withKeys (ks : List Nibble) (s : State) : State :=
  s.setKeys (ks.foldl (fun acc k => keyLevel acc k true) (Vector.replicate 16 false))

/-- `s` with the pixels of a list on. -/
def withPixels (ps : List (Fin 64 × Fin 32)) (s : State) : State :=
  s.setDisp (ps.foldl (fun d p => d.put p.1 p.2 true) s.disp)

/-- The pixels that are on among the columns `xs` of the rows `ys`, row by row. -/
def lit (xs ys : List Nat) (s : State) : List (Nat × Nat) :=
  ys.flatMap fun py => xs.filterMap fun px =>
    if (s.disp.isSet px py).toOption = some true then some (px, py) else none

/-- `n` bytes of memory from `a`. -/
def bytesAt (a n : Nat) (s : State) : List Byte := (List.range n).map fun j => s.readByte (a + j)

/-- The state with other parameters. -/
def withParams (p : Config.Params) (s : State) : State := { s with params := p }

/-- The parameters with the other reading of the shifts. -/
def sampled : Config.Params := { Config.Params.default with aliasOrder := .sampled }

/-- The parameters with the driver going on. -/
def goesOn : Config.Params := { Config.Params.default with onFault := .continueRun }

/-- The parameters with unrecognised opcodes ignored. -/
def ignores : Config.Params := { Config.Params.default with illegalPolicy := .ignore }

/-! ## Decoding: every constructor, words written bit by bit from the rows of R76 -/

theorem test_decode_family_0 :
    decodeWord 0b0000_0000_1110_0000 = some .cls ∧ decodeWord 0b0000_0000_1110_1110 = some .ret := by decide

theorem test_decode_family_1_2 :
    decodeWord 0b0001_1010_1011_1100 = some (.jp 0xABC) ∧ decodeWord 0b0010_0011_0100_0101 = some (.call 0x345) := by
  decide

theorem test_decode_family_3_4_5_9 :
    decodeWord 0b0011_1010_0100_0010 = some (.seVxKk 0xA 0x42) ∧
    decodeWord 0b0100_1010_0100_0010 = some (.sneVxKk 0xA 0x42) ∧
    decodeWord 0b0101_0001_0010_0000 = some (.seVxVy 1 2) ∧
    decodeWord 0b1001_0001_0010_0000 = some (.sneVxVy 1 2) := by decide

theorem test_decode_family_6_7 :
    decodeWord 0b0110_1010_0010_1010 = some (.ldVxKk 0xA 0x2A) ∧
    decodeWord 0b0111_0000_1111_1111 = some (.addVxKk 0 0xFF) := by decide

theorem test_decode_family_8_low :
    decodeWord 0b1000_0001_0010_0000 = some (.ldVxVy 1 2) ∧ decodeWord 0b1000_0001_0010_0001 = some (.orVxVy 1 2) ∧
    decodeWord 0b1000_0001_0010_0010 = some (.andVxVy 1 2) ∧ decodeWord 0b1000_0001_0010_0011 = some (.xorVxVy 1 2) ∧
    decodeWord 0b1000_0001_0010_0100 = some (.addVxVy 1 2) := by decide

theorem test_decode_family_8_high :
    decodeWord 0b1000_0001_0010_0101 = some (.subVxVy 1 2) ∧ decodeWord 0b1000_0010_0011_0110 = some (.shrVx 2 3) ∧
    decodeWord 0b1000_0001_0010_0111 = some (.subnVxVy 1 2) ∧
    decodeWord 0b1000_0010_0011_1110 = some (.shlVx 2 3) := by decide

theorem test_decode_family_A_B_C_D :
    decodeWord 0b1010_0011_0000_0001 = some (.ldINnn 0x301) ∧ decodeWord 0b1011_0011_0000_0010 = some (.jpV0 0x302) ∧
    decodeWord 0b1100_0001_0000_1111 = some (.rnd 1 0x0F) ∧ decodeWord 0b1101_0001_0010_0101 = some (.drw 1 2 5) := by
  decide

theorem test_decode_family_E :
    decodeWord 0b1110_0001_1001_1110 = some (.skp 1) ∧ decodeWord 0b1110_0001_1010_0001 = some (.sknp 1) := by decide

theorem test_decode_family_F_low :
    decodeWord 0b1111_0011_0000_0111 = some (.ldVxDt 3) ∧ decodeWord 0b1111_0011_0000_1010 = some (.ldVxK 3) ∧
    decodeWord 0b1111_0011_0001_0101 = some (.ldDtVx 3) ∧ decodeWord 0b1111_0011_0001_1000 = some (.ldStVx 3) ∧
    decodeWord 0b1111_0010_0001_1110 = some (.addIVx 2) := by decide

theorem test_decode_family_F_high :
    decodeWord 0b1111_0000_0010_1001 = some (.ldFVx 0) ∧ decodeWord 0b1111_0000_0011_0011 = some (.ldBVx 0) ∧
    decodeWord 0b1111_0010_0101_0101 = some (.ldMemVx 2) ∧ decodeWord 0b1111_0010_0110_0101 = some (.ldVxMem 2) := by
  decide

/-- Bytes in memory order (R52, R72): the high byte first, the rest left over; one byte is too short. -/
theorem test_decode_bytes :
    decode [0x61, 0x05, 0x80] = .ok (.ldVxKk 1 5, [0x80]) ∧ decode [0x61] = .error (.tooShort 1) ∧
    decode [0x81, 0x2F] = .error (.unrecognised 0x812F) := ⟨rfl, rfl, rfl⟩

theorem test_encode_call : encode (.call 0x20A) = 0x220A ∧ encodeBytes (.drw 1 2 5) = [0xD1, 0x25] := by decide

theorem test_decodeTableWord : decodeTableWord 16 0x8236 = some (.shrVx 2 3) ∧ decodeTableWord 16 0xE000 = none := by
  decide

/-! ## WellFormed refuses: the ill-formed opcodes of TE.6 and TE.8 to TE.19, an image of 3585 bytes (TR.3) -/

theorem test_illformed_opcodes :
    [0x0000, 0x00E1, 0x01EE, 0x0123, 0x5121, 0x9AB5, 0x8128].all (fun op => !opcodeWellFormed op) = true ∧
    [0x812F, 0xE19F, 0xE000, 0xF100, 0xF175, 0xF1FF].all (fun op => !opcodeWellFormed op) = true := by decide

theorem test_wellformed_opcodes :
    [0x00E0, 0x00EE, 0x5120, 0x9120, 0x8127, 0x812E, 0xE1A1, 0xF165].all opcodeWellFormed = true := by decide

theorem test_illformed_image :
    imageWellFormed (List.replicate 3585 0) = false ∧ imageWellFormed (List.replicate 3584 0) = true := by
  simp only [imageWellFormed, List.length_replicate]; decide

/-- No term of `Instr` is ill formed (R73, R77): the check accepts each, the largest field values among them. -/
theorem test_instr_wellformed : (Instr.drw 0xF 0xF 0xF).wellFormed = true ∧ (Instr.jp 0xFFF).wellFormed = true := by
  decide

/-! ## Fetch and the cycle -/

/-- TE.1. -/
theorem test_TE_1 : seen (fun t => (t.getV 1, t.pc)) (cycleOf 0x6105 State.reset) = some (0x05, 0x202) := by decide

/-- TE.2, TE.4. -/
theorem test_TE_2 : seen (·.pc) (cycleOf 0x6233 (State.reset.setPc 0x301)) = some 0x303 ∧
    seen (·.pc) (cycleOf 0x6A01 (State.reset.setPc 0xFFE)) = some 0x1000 := by decide

/-- TE.3, TE.5. -/
theorem test_TE_3 : faulted (step (State.reset.setPc 0xFFF)) = some (.memRangeFetch 0xFFF) ∧
    faulted (step (State.reset.setPc 0x1000)) = some (.memRangeFetch 0x1000) := by decide

/-- TE.6, TR.4: the reset machine runs into a zero word. -/
theorem test_TE_6 : faulted (step State.reset) = some (.illegalOpcode 0x0000 0x202) := by decide

/-- TE.7. -/
theorem test_TE_7 : seen id (step (withParams ignores State.reset)) = some ((withParams ignores State.reset).setPc 0x202) := by
  decide

/-! ## Flow -/

/-- T0.1. -/
theorem test_T0_1 : seen (fun t => (lit [0, 10, 63] [0, 5, 31] t, t.getV 0xF, t.pc))
    (cycleOf 0x00E0 (withPixels [(0, 0), (10, 5), (63, 31)] (regs [(0xF, 1)]))) = some ([], 1, 0x202) := by decide

/-- T0.3, T0.4. -/
theorem test_T0_3 :
    seen (fun t => (t.sp, t.pc, t.stack[0]))
      (cycleOf 0x00EE ((State.reset.setStack (State.reset.stack.set 0 0x206) 1).setPc 0x20A)) =
        some (0, 0x206, 0x206) ∧
    faulted (cycleOf 0x00EE State.reset) = some (.stackUnderflow 0x00EE 0x202) := by decide

/-- T1.1, T1.3. -/
theorem test_T1_1 : seen (·.pc) (cycleOf 0x1ABC State.reset) = some 0xABC ∧
    seen (·.pc) (cycleOf 0x1FFF State.reset) = some 0xFFF := by decide

/-- T2.2. -/
theorem test_T2_2 : seen (fun t => (t.sp, t.stack[15], t.pc))
    (cycleOf 0x2300 (State.reset.setStack State.reset.stack 15)) = some (16, 0x202, 0x300) := by decide

/-- T2.3. -/
theorem test_T2_3 :
    faulted (cycleOf 0x2300 (State.reset.setStack State.reset.stack 16)) = some (.stackOverflow 0x2300 0x202) := by decide

/-- TB.3. -/
theorem test_TB_3 : seen (·.pc) (cycleOf 0xBFFF (regs [(0, 0xFF)])) = some 0x10FE := by decide

/-! ## Skips -/

/-- T3.1, T3.2. -/
theorem test_T3_1 : seen (·.pc) (cycleOf 0x3A42 (regs [(0xA, 0x42)])) = some 0x204 ∧
    seen (·.pc) (cycleOf 0x3A42 (regs [(0xA, 0x43)])) = some 0x202 := by decide

/-- T4.1, T4.2. -/
theorem test_T4_1 : seen (·.pc) (cycleOf 0x4A42 (regs [(0xA, 0x42)])) = some 0x202 ∧
    seen (·.pc) (cycleOf 0x4A42 (regs [(0xA, 0x43)])) = some 0x204 := by decide

/-- T5.1, T5.2. -/
theorem test_T5_1 : seen (·.pc) (cycleOf 0x5120 (regs [(1, 7), (2, 7)])) = some 0x204 ∧
    seen (·.pc) (cycleOf 0x5120 (regs [(1, 7), (2, 8)])) = some 0x202 := by decide

/-- T9.1, T9.2. -/
theorem test_T9_1 : seen (·.pc) (cycleOf 0x9120 (regs [(1, 7), (2, 8)])) = some 0x204 ∧
    seen (·.pc) (cycleOf 0x9120 (regs [(1, 7), (2, 7)])) = some 0x202 := by decide

/-- TK.2, TK.6. -/
theorem test_TK_2 : seen (·.pc) (cycleOf 0xE19E (withKeys [4, 6] (regs [(1, 5)]))) = some 0x202 ∧
    seen (·.pc) (cycleOf 0xE19E (withKeys [0xF] (regs [(1, 0xF)]))) = some 0x204 := by decide

/-- TK.3, TK.4. -/
theorem test_TK_3 : seen (·.pc) (cycleOf 0xE1A1 (withKeys [5] (regs [(1, 5)]))) = some 0x202 ∧
    seen (·.pc) (cycleOf 0xE1A1 (withKeys [] (regs [(1, 5)]))) = some 0x204 := by decide

/-- TK.7, TK.8. -/
theorem test_TK_7 : faulted (cycleOf 0xE19E (withKeys [0] (regs [(1, 0x10)]))) = some (.keyRange 0xE19E 0x10) ∧
    faulted (cycleOf 0xE1A1 (regs [(1, 0xFF)])) = some (.keyRange 0xE1A1 0xFF) := by decide

/-! ## Families 6, 7, 8 -/

/-- T6.2. -/
theorem test_T6_2 : seen (·.getV 0xF) (cycleOf 0x6F80 (regs [(0xF, 1)])) = some 0x80 := by decide

/-- T7.2, T7.3. -/
theorem test_T7_2 : seen (fun t => (t.getV 0, t.getV 0xF)) (cycleOf 0x7001 (regs [(0, 0xFF)])) = some (0, 0) ∧
    seen (fun t => (t.getV 0, t.getV 0xF)) (cycleOf 0x70FF (regs [(0, 5), (0xF, 1)])) = some (4, 1) := by decide

/-- T8.1 to T8.4. -/
theorem test_T8_1 :
    seen (fun t => (t.getV 1, t.getV 2)) (cycleOf 0x8120 (regs [(1, 0x11), (2, 0x22)])) = some (0x22, 0x22) ∧
    seen (fun t => (t.getV 1, t.getV 0xF)) (cycleOf 0x8121 (regs [(1, 0xF0), (2, 0x0F), (0xF, 1)])) = some (0xFF, 1) ∧
    seen (fun t => (t.getV 1, t.getV 0xF)) (cycleOf 0x8122 (regs [(1, 0xF3), (2, 0x3F), (0xF, 1)])) = some (0x33, 1) ∧
    seen (fun t => (t.getV 1, t.getV 0xF)) (cycleOf 0x8123 (regs [(1, 0xFF), (2, 0x0F), (0xF, 1)])) = some (0xF0, 1) := by
  decide

/-- T8.11, T8.13. -/
theorem test_T8_11 :
    seen (fun t => (t.getV 0, t.getV 0xF)) (cycleOf 0x8014 (regs [(0, 0xC8), (1, 0x64)])) = some (0x2C, 1) ∧
    seen (fun t => (t.getV 0, t.getV 0xF)) (cycleOf 0x8014 (regs [(0, 0xFF), (0xF, 1)])) = some (0xFF, 0) := by decide

/-- T8.15, T8.17: y = F, x = F. -/
theorem test_T8_15 :
    seen (fun t => (t.getV 3, t.getV 0xF)) (cycleOf 0x83F4 (regs [(3, 0xFF), (0xF, 1)])) = some (0, 1) ∧
    seen (·.getV 0xF) (cycleOf 0x8F14 (regs [(1, 0x20), (0xF, 0x10)])) = some 0 := by decide

/-- T8.21, T8.22. -/
theorem test_T8_21 :
    seen (fun t => (t.getV 0, t.getV 0xF)) (cycleOf 0x8015 (regs [(0, 3), (1, 0x0A), (0xF, 1)])) = some (0xF9, 0) ∧
    seen (fun t => (t.getV 0, t.getV 0xF)) (cycleOf 0x8015 (regs [(0, 5), (1, 5), (0xF, 1)])) = some (0, 0) := by decide

/-- T8.31, T8.34. -/
theorem test_T8_31 :
    seen (fun t => (t.getV 2, t.getV 3, t.getV 0xF)) (cycleOf 0x8236 (regs [(2, 5), (3, 0xAA)])) = some (2, 0xAA, 1) ∧
    seen (·.getV 0xF) (cycleOf 0x8F06 (regs [(0xF, 7)])) = some 0 := by decide

/-- T8.35. -/
theorem test_T8_35 : seen (·.getV 0xF) (cycleOf 0x8F06 (withParams sampled (regs [(0xF, 7)]))) = some 3 := by decide

/-- T8.40, T8.41. -/
theorem test_T8_40 :
    seen (fun t => (t.getV 0, t.getV 0xF)) (cycleOf 0x8017 (regs [(0, 3), (1, 0x0A)])) = some (7, 1) ∧
    seen (fun t => (t.getV 0, t.getV 0xF)) (cycleOf 0x8017 (regs [(0, 0x0A), (1, 3), (0xF, 1)])) = some (0xF9, 0) := by
  decide

/-- T8.50, T8.51. -/
theorem test_T8_50 :
    seen (fun t => (t.getV 2, t.getV 0xF)) (cycleOf 0x820E (regs [(2, 0x81)])) = some (2, 1) ∧
    seen (fun t => (t.getV 2, t.getV 0xF)) (cycleOf 0x820E (regs [(2, 0x7F), (0xF, 1)])) = some (0xFE, 0) := by decide

/-- T8.53, T8.54. -/
theorem test_T8_53 : seen (·.getV 0xF) (cycleOf 0x8F0E (regs [(0xF, 0x81)])) = some 2 ∧
    seen (·.getV 0xF) (cycleOf 0x8F0E (withParams sampled (regs [(0xF, 0x81)]))) = some 2 := by decide

/-! ## Families A, C -/

/-- TA.2. -/
theorem test_TA_2 : seen (·.i) (cycleOf 0xAFFF (State.reset.setI 0x123)) = some 0xFFF := by decide

/-- TC.1, the random source having 0xB7 ready and another byte after it. -/
theorem test_TC_1 : seen (fun t => (t.getV 1, t.rand, t.draws)) (cycleOf 0xC10F (State.reset.setRandom [0xB7, 0x5A] 0)) =
    some (0x07, [0x5A], 1) := by decide

/-! ## Family D -/

/-- TD.1. -/
theorem test_TD_1 : seen (fun t => (lit [0, 1, 2, 3, 4, 5, 6, 7, 8] [0, 1, 2, 3, 4, 5] t, t.getV 0xF)) (cycleOf 0xD015 State.reset) =
    some ([(0, 0), (1, 0), (2, 0), (3, 0), (0, 1), (3, 1), (0, 2), (3, 2), (0, 3), (3, 3), (0, 4), (1, 4), (2, 4), (3, 4)],
      0) := by decide

/-- TD.4: the collision flag is written 0. -/
theorem test_TD_4 : seen (fun t => (lit [0, 1, 2, 3, 4, 5, 6, 7, 8, 63] [0, 1] t, t.getV 0xF))
    (cycleOf 0xD011 (withPixels [(0, 0), (1, 0), (2, 0), (3, 0)]
      (((regs [(0xF, 1)]).setI 0x300).storeBytes 0x300 [0x0F]))) =
    some ([(0, 0), (1, 0), (2, 0), (3, 0), (4, 0), (5, 0), (6, 0), (7, 0)], 0) := by decide

/-- TD.5: wrap on both axes. -/
theorem test_TD_5 : seen (fun t => (lit [0, 1, 2, 62, 63] [0, 1, 30, 31] t, t.getV 0xF))
    (cycleOf 0xD012 (((regs [(0, 0x3F), (1, 0x1F)]).setI 0x300).storeBytes 0x300 [0xC0, 0xC0])) =
    some ([(0, 0), (63, 0), (0, 31), (63, 31)], 0) := by decide

/-- TD.10, TD.13. -/
theorem test_TD_10 : seen (·.getV 0xF) (cycleOf 0xD010 ((regs [(0xF, 1)]).setI 0xFFFF)) = some 0 ∧
    faulted (cycleOf 0xD012 (State.reset.setI 0xFFF)) = some (.memRangeData 0xD012 0xFFF 4096 4096) := by decide

/-! ## Family F -/

/-- TF.1, TF.11. -/
theorem test_TF_1 : seen (·.getV 3) (cycleOf 0xF307 (State.reset.setDt 0x2A)) = some 0x2A ∧
    seen (·.dt) (cycleOf 0xF315 (State.reset.setDt 7)) = some 0 := by decide

/-- TF.13. -/
theorem test_TF_13 : seen (fun t => (t.dt, t.st)) (cycleOf 0xF318 ((regs [(3, 1)]).setDt 5)) = some (5, 1) := by decide

/-- TF.3: the host delivers key 7 while the instruction waits; a tick that stands before it does not happen. -/
theorem test_TF_3 : seen (fun t => (t.getV 3, t.dt, t.pc, t.waiting, t.host))
    (step (((State.reset.withFetchWord 16 0xF30A).setDt 9).setHost [.cycle, .tick, .keyUp 7, .keyDown 7, .tick])) =
    some (7, 9, 0x202, none, [.tick]) := by decide

/-- TF.4, TT.6: nothing comes, the engine stalls, and a step of the stalled engine changes nothing. -/
theorem test_TF_4 : seen (fun t => (t.getV 3, t.dt, t.pc, t.waiting, seen id (step t) == some t))
    (cycleOf 0xF30A ((regs [(3, 0x55)]).setDt 9)) = some (0x55, 9, 0x202, some 3, true) := by decide

/-- TF.21, TF.22. -/
theorem test_TF_21 : seen (fun t => (t.i, t.getV 0xF)) (cycleOf 0xF21E ((regs [(2, 1)]).setI 0xFFF)) = some (0x1000, 0) ∧
    seen (·.i) (cycleOf 0xF21E ((regs [(2, 1)]).setI 0xFFFF)) = some 0 := by decide

/-- TF.24, TF.28. -/
theorem test_TF_24 : seen (·.i) (cycleOf 0xF029 (regs [(0, 0x0A)])) = some 0x032 ∧
    seen (·.i) (cycleOf 0xF029 (regs [(0, 0xFF)])) = some 0x4FB := by decide

/-- TF.30, TF.36. -/
theorem test_TF_30 : seen (bytesAt 0x300 3) (cycleOf 0xF033 ((regs [(0, 0x9D)]).setI 0x300)) = some [1, 5, 7] ∧
    faulted (cycleOf 0xF033 ((regs [(0, 0xC7)]).setI 0xFFE)) = some (.memRangeData 0xF033 0xFFE 4096 4096) := by decide

/-- TF.40, TF.43. -/
theorem test_TF_40 :
    seen (fun t => (bytesAt 0x400 4 t, t.i))
      (cycleOf 0xF255 ((regs [(0, 0x11), (1, 0x22), (2, 0x33), (3, 0x44)]).setI 0x400)) =
        some ([0x11, 0x22, 0x33, 0], 0x400) ∧
    faulted (cycleOf 0xFF55 (State.reset.setI 0xFF1)) = some (.memRangeData 0xFF55 0xFF1 4096 4096) := by decide

/-- TF.50, TF.53. -/
theorem test_TF_50 :
    seen (fun t => (t.getV 0, t.getV 1, t.getV 2, t.getV 3))
      (cycleOf 0xF265 (((regs [(3, 0x99)]).setI 0x400).storeBytes 0x400 [0x11, 0x22, 0x33, 0x44])) =
        some (0x11, 0x22, 0x33, 0x99) ∧
    faulted (cycleOf 0xF165 (State.reset.setI 0xFFF)) = some (.memRangeData 0xF165 0xFFF 4096 4096) := by decide

/-! ## The outside, reset, the loader -/

/-- TT.4, TT.5. -/
theorem test_TT_4 :
    seen (fun t => (t.dt, t.st, t.pc)) (step ((State.reset.setSt 3).setHost [.tick])) = some (0, 2, 0x200) ∧
    seen (fun t => (t.dt, t.st)) (step (((State.reset.setDt 0xFF).setSt 0x80).setHost [.tick])) = some (0xFE, 0x7F) := by
  decide

/-- A key goes down, another up, between cycles (R241). -/
theorem test_key_levels : seen (fun t => (t.keyDown 5, t.keyDown 6, t.host))
    (core.run 2 ((withKeys [6] State.reset).setHost [.keyDown 5, .keyUp 6, .cycle])) = some (true, false, [.cycle]) := by
  decide

/-- TR.2. -/
theorem test_TR_2 :
    [0x000, 0x001, 0x004, 0x005, 0x009, 0x032, 0x036, 0x04B, 0x04F, 0x050].map State.reset.readByte =
      [0xF0, 0x90, 0xF0, 0x20, 0x70, 0xF0, 0x90, 0xF0, 0x80, 0x00] := by decide

/-- TR.3. -/
theorem test_TR_3 : seen (bytesAt 0x1FE 10) (boot [0x60, 0x0A, 0x61, 0x05, 0x80, 0x14]) =
    some [0, 0, 0x60, 0x0A, 0x61, 0x05, 0x80, 0x14, 0, 0] := by decide

/-- `set` turns a pixel on and is checked, not wrapped (R162). -/
theorem test_set_pixel : ((State.reset.disp.setPixel 63 31).toOption.map fun d => d.isOn 63 31) = some true ∧
    State.reset.disp.setPixel 64 0 = .error (.pixelRange 64 0) := by decide

/-! ## Witnesses: states and operands that meet the hypotheses of each obligation, at the ends of their ranges -/

/-- A state whose next step is the cycle that runs `op`, the outside having a tick to deliver after it. -/
def due (op : Nat) (s : State) : State := (s.withFetchWord 16 op).setHost [.cycle, .tick]

theorem witness_LoaderPlacesImageVerbatim :
    (List.replicate 3584 (0 : Byte)).length ≤ 3584 ∧ 3584 < (List.replicate 3585 (0 : Byte)).length := by
  simp only [List.length_replicate]; decide

theorem witness_FetchReadsTwoBytesBigEndian :
    (State.reset.setPc 4094).pc.toNat ≤ 4094 ∧ 4094 < (State.reset.setPc 4095).pc.toNat := by decide

/-- With nothing left of the outside, and with a cycle as its next move; the last fetchable pc. -/
theorem witness_StepRunsDecodedInstruction :
    (CycleIsDue ((State.reset.setPc 0xFFE).withFetchWord 16 0x6A01) [] ∧
      decode (bytesAt 0xFFE 2 ((State.reset.setPc 0xFFE).withFetchWord 16 0x6A01)) = .ok (.ldVxKk 0xA 1, [])) ∧
    (CycleIsDue (due 0x6A01 State.reset) [.tick] ∧ (due 0x6A01 State.reset).pc.toNat ≤ 4094 ∧
      decode (bytesAt 0x200 2 (due 0x6A01 State.reset)) = .ok (.ldVxKk 0xA 1, [])) :=
  ⟨⟨⟨rfl, .inl ⟨rfl, rfl⟩⟩, by decide⟩, ⟨⟨rfl, .inr rfl⟩, by decide, by decide⟩⟩

/-- Its clauses: an instruction that completes, and one that faults with the driver halting and going on. -/
theorem witness_StepRunsDecodedInstruction_clauses :
    seen (·.getV 0xA) (exec (.ldVxKk 0xA 1) State.reset.advance) = some 1 ∧
    faulted (exec .ret State.reset.advance) = some (.stackUnderflow 0x00EE 0x202) ∧
    State.reset.params.onFault = .haltRun ∧ (withParams goesOn State.reset).params.onFault = .continueRun := by decide

theorem witness_FetchFaultLeavesPc :
    CycleIsDue (State.reset.setPc 4095) [] ∧ 4094 < (State.reset.setPc 4095).pc.toNat ∧
    (State.reset.setPc 4095).params.onFault = .haltRun ∧
    CycleIsDue (withParams goesOn (State.reset.setPc 4095)) [] ∧
    (withParams goesOn (State.reset.setPc 4095)).params.onFault = .continueRun :=
  ⟨⟨rfl, .inl ⟨rfl, rfl⟩⟩, by decide, rfl, ⟨rfl, .inl ⟨rfl, rfl⟩⟩, rfl⟩

theorem witness_UnrecognisedOpcodeFollowsPolicy :
    decodeWord 0x812F = none ∧ State.reset.params.illegalPolicy = .report ∧
    (withParams ignores State.reset).params.illegalPolicy = .ignore := by decide

/-- TE.14 at the last fetchable pc, and what each of its clauses assumes of the parameters. -/
theorem witness_StepOnUnrecognisedOpcodeFollowsPolicy :
    CycleIsDue ((State.reset.setPc 0xFFE).withFetchWord 16 0x812F) [] ∧
    ((State.reset.setPc 0xFFE).withFetchWord 16 0x812F).pc.toNat ≤ 4094 ∧
    decode (bytesAt 0xFFE 2 ((State.reset.setPc 0xFFE).withFetchWord 16 0x812F)) = .error (.unrecognised 0x812F) ∧
    (withParams ignores State.reset).params.illegalPolicy = .ignore ∧
    State.reset.params.illegalPolicy = .report ∧ State.reset.params.onFault = .haltRun ∧
    (withParams goesOn State.reset).params.illegalPolicy = .report ∧
    (withParams goesOn State.reset).params.onFault = .continueRun :=
  ⟨⟨rfl, .inl ⟨rfl, rfl⟩⟩, by decide⟩

/-- A fault of the fetch, of execute, and of a renderer, the driver halting. -/
theorem witness_FaultsArePrecise :
    State.reset.params.onFault = .haltRun ∧
    faulted (step (State.reset.setPc 4095)) = some (.memRangeFetch 4095) ∧
    faulted (step (due 0x00EE State.reset)) = some (.stackUnderflow 0x00EE 0x202) ∧
    faulted (step (State.reset.setHost [.pixel 64 0])) = some (.pixelRange 64 0) := by decide

/-- Each condition met and just not met. -/
theorem witness_InstructionsFaultExactlyWhenListed :
    faultOf State.reset .ret = some (.stackUnderflow 0x00EE 0x200) ∧
    faultOf (State.reset.setStack State.reset.stack 1) .ret = none ∧
    faultOf (State.reset.setStack State.reset.stack 16) (.call 0) = some (.stackOverflow 0x2000 0x200) ∧
    faultOf (State.reset.setStack State.reset.stack 15) (.call 0) = none ∧
    faultOf (State.reset.setI 4095) (.drw 0 0 2) = some (.memRangeData 0xD002 4095 4096 4096) ∧
    faultOf (State.reset.setI 4095) (.drw 0 0 1) = none ∧ faultOf (State.reset.setI 0xFFFF) (.drw 0 0 0) = none ∧
    faultOf (regs [(1, 16)]) (.skp 1) = some (.keyRange 0xE19E 16) ∧ faultOf (regs [(1, 15)]) (.skp 1) = none ∧
    faultOf (regs [(1, 16)]) (.sknp 1) = some (.keyRange 0xE1A1 16) ∧ faultOf (regs [(1, 15)]) (.sknp 1) = none := by
  decide

theorem witness_InstructionsFaultExactlyWhenListed_memory :
    faultOf (State.reset.setI 4094) (.ldBVx 0) = some (.memRangeData 0xF033 4094 4096 4096) ∧
    faultOf (State.reset.setI 4093) (.ldBVx 0) = none ∧
    faultOf (State.reset.setI 0xFF1) (.ldMemVx 0xF) = some (.memRangeData 0xFF55 0xFF1 4096 4096) ∧
    faultOf (State.reset.setI 0xFF0) (.ldMemVx 0xF) = none ∧
    faultOf (State.reset.setI 0xFF1) (.ldVxMem 0xF) = some (.memRangeData 0xFF65 0xFF1 4096 4096) ∧
    faultOf (State.reset.setI 0xFF0) (.ldVxMem 0xF) = none := by decide

theorem witness_PlacedInstructionRunsNext :
    seen (·.getV 0xA) (exec (.ldVxKk 0xA 1) (State.reset.withFetchWord 16 (encode (.ldVxKk 0xA 1)).toNat).advance) =
      some 1 := by decide

theorem witness_DecodeOfEncodeIsInstruction : (Instr.shlVx 0xF 0xF).wellFormed = true := by decide

theorem witness_EncodeOfDecodeIsOpcode : decodeWord 0x8FFE = some (.shlVx 0xF 0xF) := by decide

theorem witness_DecoderFollowsOpcodeMap :
    opcodeMap[0]? = some ⟨0xFFFF, 0x00E0⟩ ∧ opcodeMap[33]? = some ⟨0xF0FF, 0xF065⟩ := by decide

theorem witness_RetPopsIntoPc :
    0 < (State.reset.setStack State.reset.stack 1).sp.val ∧ State.reset.sp.val = 0 := by decide

theorem witness_CallPushesAdvancedPc :
    (State.reset.setStack State.reset.stack 15).sp.val < 16 ∧ (State.reset.setStack State.reset.stack 16).sp.val = 16 := by
  decide

/-- The call of T2.1 at the last fetchable address, the return of T0.3 at its target. -/
def callState : State := ((State.reset.storeBytes 0xFFE [0x22, 0x0A]).storeBytes 0x20A [0x00, 0xEE]).setPc 0xFFE

theorem witness_CallThenReturnComesBack :
    callState.waiting = none ∧ callState.host = [] ∧ callState.pc.toNat ≤ 4094 ∧ callState.sp.val < 16 ∧
    (fetch callState).toOption = some (0x2#4 ++ 0x20A#12) ∧
    (fetch { callState with pc := BitVec.setWidth 16 0x20A#12 }).toOption = some 0x00EE := by decide

theorem witness_KeySkipsReadTheNamedKey :
    ((regs [(1, 0)]).getV 1).toNat = (0 : Fin 16).val ∧ ((regs [(1, 15)]).getV 1).toNat = (15 : Fin 16).val ∧
    15 < ((regs [(1, 16)]).getV 1).toNat := by decide

/-- `AddVxVySetsCarry`, `SubtractsSetStrictComparison` and the shifts: another register than VF, and VF under both readings. -/
theorem witness_flag_destinations :
    (0xE : Nibble) ≠ 0xF ∧ (0xF : Nibble) = 0xF ∧ State.reset.params.aliasOrder = .listed ∧
    (withParams sampled State.reset).params.aliasOrder = .sampled := by decide

theorem witness_RndMasksOneFreshByte :
    (State.reset.setRandom [0xB7] 0).rand = 0xB7 :: [] ∧ State.reset.rand = [] := by decide

theorem witness_BcdStoresThreeDigits :
    (State.reset.setI 4093).i.toNat + 2 ≤ 4095 ∧ 4095 < (State.reset.setI 4094).i.toNat + 2 := by decide

/-- `StoreBlockWritesV0ToVx` and `LoadBlockReadsV0ToVx`. -/
theorem witness_register_blocks :
    (State.reset.setI 0xFF0).i.toNat + (0xF : Nibble).toNat ≤ 4095 ∧
    4095 < (State.reset.setI 0xFF1).i.toNat + (0xF : Nibble).toNat := by decide

/-- TF.44: V0 and V1 stored over the next opcode; the digits of TF.35 stored up to the last byte, where the last fetchable
opcode stands. -/
theorem witness_StoredBytesAreFetched :
    (seen (fun t => (t.pc, t.readByte 0x202, t.readByte 0x203))
      (exec (.ldMemVx 1) (((regs [(0, 0x6A), (1, 0x2A)]).setI 0x202).setPc 0x202)) = some (0x202, 0x6A, 0x2A)) ∧
    (seen (fun t => (t.readByte 0xFFE, t.readByte 0xFFF))
      (exec (.ldBVx 0) ((regs [(0, 0xC7)]).setI 0xFFD)) = some (9, 9)) ∧
    (0x202 : Word).toNat ≤ 4094 ∧ (0xFFE : Word).toNat ≤ 4094 := by decide

/-- The instruction itself, and a step of a waiting engine; no key-down before key F's. -/
theorem witness_KeyDownEndsTheWait :
    ((State.reset.setHost [.tick, .keyUp 3, .keyDown 0xF, .tick]).setWaiting (some 3)).host =
      ([.tick, .keyUp 3] : List HostEvent) ++ (.keyDown 0xF :: [.tick] : List HostEvent) ∧
    NoKeyDown [.tick, .keyUp 3] ∧
    ((State.reset.setHost [.tick, .keyUp 3, .keyDown 0xF, .tick]).setWaiting (some 3)).waiting = some 3 :=
  ⟨by decide, by simp [NoKeyDown], by decide⟩

theorem witness_WaitWithoutKeyFreezesTheMachine :
    NoKeyDown (State.reset.setHost [.tick, .keyUp 3]).host ∧ NoKeyDown State.reset.host ∧
    ((State.reset.setHost []).setWaiting (some 0xF)).waiting = some 0xF :=
  ⟨by simp [NoKeyDown], by simp [NoKeyDown, State.reset], by decide⟩

theorem witness_TickCountsBothTimersDown :
    (State.reset.setHost [.tick, .cycle]).waiting = none ∧ (State.reset.setHost [.tick, .cycle]).host = .tick :: [.cycle] := by
  decide

theorem witness_KeyLevelIsTheLatestEvent :
    (State.reset.setHost [.keyDown 0, .unknownKey, .keyUp 0xF, .cycle]).waiting = none ∧
    (State.reset.setHost [.keyDown 0, .unknownKey, .keyUp 0xF, .cycle]).host =
      ([.keyDown 0, .unknownKey, .keyUp 0xF] : List HostEvent) ++ ([.cycle] : List HostEvent) ∧
    ∀ e ∈ [HostEvent.keyDown 0, .unknownKey, .keyUp 0xF], isKeyEvent e = true := by decide

theorem witness_DisplayPrimitivesCheckBounds :
    (63 : Fin 64).val = 63 ∧ (31 : Fin 32).val = 31 ∧ (64 ≤ 64 ∨ 32 ≤ 31) ∧ (64 ≤ 63 ∨ 32 ≤ 32) := by decide

theorem witness_RendererReadChangesNothing :
    (State.reset.setHost [.pixel 63 31]).waiting = none ∧ (State.reset.setHost [.pixel 63 31]).host = .pixel 63 31 :: [] ∧
    (State.reset.setHost [.pixel 64 31]).host = .pixel 64 31 :: [] ∧
    (State.reset.setHost [.pixel 63 32]).host = .pixel 63 32 :: [] ∧ State.reset.params.onFault = .haltRun := by decide

/-- Fifteen rows; a pixel a sprite bit lies on by wrap, on in the display, and one no bit lies on (TD.5). -/
theorem witness_SpriteComposesByXor :
    (List.replicate 15 (0xFF : Byte)).length ≤ 15 ∧ SpriteBitAt [0xC0, 0xC0] 63 31 0 0 ∧
    (Display.clear State.reset.disp |>.put 0 0 true).isOn 0 0 = true ∧ ¬ SpriteBitAt [0x00] 63 31 0 0 := by
  refine ⟨by decide, ⟨1, 1, 0xC0, by decide⟩, by decide, ?_⟩
  rintro ⟨r, c, row, hr, hc, hb, -⟩
  rcases r with _ | r <;> simp at hr
  subst hr; interval_cases c <;> simp at hb

theorem witness_SpriteDrawnTwiceRestores :
    ([0xC0, 0xC0] : List Byte).length ≤ 15 ∧ ([0xC0, 0xC0] : List Byte)[1]? = some 0xC0 ∧
    (0xC0 : Byte).getLsbD 6 = true ∧ ∀ row ∈ List.replicate 15 (0 : Byte), row = 0 := by decide

theorem witness_DrwDrawsSpriteAndSetsVF :
    ((0 : Nibble).toNat = 0 ∨ (State.reset.setI 0xFFFF).i.toNat + (0 : Nibble).toNat - 1 ≤ 4095) ∧
    ((1 : Nibble).toNat = 0 ∨ (State.reset.setI 4095).i.toNat + (1 : Nibble).toNat - 1 ≤ 4095) ∧
    0 < (2 : Nibble).toNat ∧ 4095 < (State.reset.setI 4095).i.toNat + (2 : Nibble).toNat - 1 := by decide

theorem witness_InstructionsWriteOnlyTheirColumns :
    seen (·.sp) (exec (.call 0xFFF) (State.reset.setStack State.reset.stack 15)) = some 16 := by decide

/-- A step that takes pc to the largest value the invariant allows (TB.3). -/
theorem witness_EveryStepKeepsTheBounds :
    (due 0xBFFF (regs [(0, 0xFF)])).Inv ∧ seen (·.pc) (step (due 0xBFFF (regs [(0, 0xFF)]))) = some 0x10FE := by decide

theorem witness_ParametersAndReportsAreKept :
    seen (·.faults) (step (withParams goesOn State.reset)) = some [.illegalOpcode 0x0000 0x202] := by decide

/-- T1.2. -/
theorem witness_JumpToItselfIsFinal :
    (due 0x1200 State.reset).Finished ∧ CycleIsDue (due 0x1200 State.reset) [.tick] :=
  ⟨⟨by decide, by decide⟩, rfl, .inr rfl⟩

theorem witness_VFAliasTableHolds : (3 : Nibble) ≠ 0xF ∧ (0 : Nibble) ≠ 0xF := by decide

end Sys2Proof.Tests
end

section
/-! # Scope: every step has a meaning, and what it does to the parameters and the reports

Both obligations follow from one case split over the instructions (`exec_answers`): an instruction answers a fault or a next
state with the parameters and the reports as they were. A report is added by the driver only. -/

namespace Sys2Proof.Machine

/-- The answer is a fault, or a next state of which `P` holds; it is not a refusal. -/
def Answers (P : State → Prop) : Result → Prop
  | .next t => P t
  | .fault _ => True
  | .refused _ => False

theorem answers_iff {P : State → Prop} {a : Result} :
    Answers P a ↔ (∀ r, a ≠ .refused r) ∧ ∀ t, a = .next t → P t := by
  cases a <;> simp [Answers]

/-- The parameters and the reports of `t` are those of `s` (log 6, log 7). -/
def SameReports (s t : State) : Prop := t.params = s.params ∧ t.faults = s.faults

/-- The parameters of `t` are those of `s`, and so are the reports but for at most one new fault in front. -/
def AddsAtMostOneReport (s t : State) : Prop :=
  t.params = s.params ∧ (t.faults = s.faults ∨ ∃ r, t.faults = r :: s.faults)

theorem SameReports.addsAtMostOneReport {s t : State} (h : SameReports s t) : AddsAtMostOneReport s t :=
  ⟨h.1, .inl h.2⟩

theorem addsAtMostOneReport_addFault (s : State) (r : Fault) : AddsAtMostOneReport s (s.addFault r) :=
  ⟨rfl, .inr ⟨r, rfl⟩⟩

/-! ### The shared operations -/

theorem answers_checked {P : State → Prop} {f : Option Fault} {t : State} (h : P t) : Answers P (checked f t) :=
  answers_iff.mpr ⟨fun _ => checked_ne_refused, fun _ hu => (checked_eq_next.mp hu).2 ▸ h⟩

theorem answers_reportFault (r : Fault) (s : State) : Answers (AddsAtMostOneReport s) (reportFault r s) :=
  answers_iff.mpr ⟨fun _ => reportFault_ne_refused,
    fun _ ht => (reportFault_eq_next.mp ht).2 ▸ addsAtMostOneReport_addFault s r⟩

theorem answers_unrecognised (op : Word) (s : State) : Answers (SameReports s) (unrecognised op s) := by
  unfold unrecognised
  cases s.params.illegalPolicy with
  | report => trivial
  | ignore => exact ⟨rfl, rfl⟩

theorem sameReports_skipIf (s : State) (c : Bool) : SameReports s (s.skipIf c) := by
  rw [State.skipIf_eq]; exact ⟨rfl, rfl⟩

theorem sameReports_flagThenShift (s : State) (x : Nibble) (flag shift : Byte → Byte) :
    SameReports s (s.flagThenShift x flag shift) := by
  unfold State.flagThenShift
  cases s.params.aliasOrder <;> exact ⟨rfl, rfl⟩

theorem sameReports_loadRegs (s : State) (x : Nibble) : SameReports s (s.loadRegs x) := by
  obtain ⟨v, h⟩ := s.loadRegs_eq_withV x
  rw [h]; exact ⟨rfl, rfl⟩

theorem sameReports_waitForKey (x : Nibble) (s : State) : SameReports s (waitForKey x s) := by
  obtain ⟨k, ks, es, -, h⟩ | ⟨ks, es, -, h⟩ := waitForKey_cases x s <;> rw [h] <;> exact ⟨rfl, rfl⟩

/-! ### The instructions, the cycle and the step -/

theorem answers_execRet (s : State) : Answers (SameReports s) (execRet s) := by
  unfold execRet
  cases hp : s.pop with
  | none => trivial
  | some p =>
    obtain ⟨a, t⟩ := p
    obtain ⟨_, -, rfl⟩ := State.pop_eq_some hp
    exact ⟨rfl, rfl⟩

theorem answers_execCall (nnn : Addr12) (s : State) : Answers (SameReports s) (execCall nnn s) := by
  unfold execCall
  cases hp : s.push s.pc with
  | none => trivial
  | some t =>
    obtain ⟨_, rfl⟩ := State.push_eq_some hp
    exact ⟨rfl, rfl⟩

/-- Every instruction has a meaning (R10), and none touches the parameters or the reports. -/
theorem answers_exec (i : Instr) (s : State) : Answers (SameReports s) (exec i s) := by
  cases i with
  | ret => exact answers_execRet s
  | call nnn => exact answers_execCall nnn s
  | seVxKk | sneVxKk | seVxVy | sneVxVy => exact sameReports_skipIf s _
  | shrVx x | shlVx x => exact sameReports_flagThenShift s x _ _
  | skp | sknp => exact answers_checked (sameReports_skipIf s _)
  | drw | ldBVx | ldMemVx => exact answers_checked ⟨rfl, rfl⟩
  | ldVxK x => exact sameReports_waitForKey x s
  | ldVxMem x => exact answers_checked (sameReports_loadRegs s x)
  | _ => exact ⟨rfl, rfl⟩

/-- `Execute` is total on the 65536 words (R71). -/
theorem answers_execute (op : Word) (s : State) : Answers (SameReports s) (execute op s) := by
  unfold execute
  cases decodeWord op with
  | none => exact answers_unrecognised op s
  | some i => exact answers_exec i s

/-- The driver adds the one report there can be, for a fault of the fetch or of execute (R225). -/
theorem answers_cycle (s : State) : Answers (AddsAtMostOneReport s) (cycle s) := by
  unfold cycle
  cases fetch s with
  | error r => exact answers_reportFault r s
  | ok op =>
    have hx := answers_execute op s.advance
    dsimp only
    generalize execute op s.advance = a at hx ⊢
    cases a with
    | next t => exact SameReports.addsAtMostOneReport hx
    | fault r => exact answers_reportFault r s.advance
    | refused r => exact hx.elim

theorem answers_renderPixel (x y : Nat) (s : State) : Answers (AddsAtMostOneReport s) (renderPixel x y s) := by
  unfold renderPixel
  cases s.disp.isSet x y with
  | ok => exact ⟨rfl, .inl rfl⟩
  | error r => exact answers_reportFault r s

theorem answers_hostMove (e : HostEvent) (s : State) : Answers (AddsAtMostOneReport s) (hostMove e s) := by
  cases e with
  | cycle => exact answers_cycle s
  | pixel x y => exact answers_renderPixel x y s
  | _ => exact ⟨rfl, .inl rfl⟩

theorem answers_step (s : State) : Answers (AddsAtMostOneReport s) (step s) := by
  obtain ⟨x, -, h⟩ | ⟨-, -, h⟩ | ⟨e, es, -, -, h⟩ := step_cases s <;> rw [h]
  · exact (sameReports_waitForKey x s).addsAtMostOneReport
  · exact answers_cycle s
  · exact answers_hostMove e (s.setHost es)

end Sys2Proof.Machine

open Sys2Proof Sys2Proof.Machine

/-- Settles O11, from the one case split over what a step can answer. -/
theorem stepNeverRefuses : Obligations.StepNeverRefuses :=
  fun s => (answers_iff.mp (answers_step s)).1

/-- Settles O57, from the same case split: the driver and a renderer's read add a report, an instruction never does. -/
theorem parametersAndReportsAreKept : Obligations.ParametersAndReportsAreKept :=
  fun s => (answers_iff.mp (answers_step s)).2
end

section
/-! # The state: what each instruction writes, and the bounds every step keeps

`Unchanged f s t` is carried through an instruction one update at a time: a rule per state update says that a write inside
the footprint `f` keeps it, and an instruction's frame is the chain of its updates. The bounds of R24 follow in the same way,
with one rule for each update that touches `pc`, the stack or memory. -/

namespace Sys2Proof.Machine

/-! ### One frame rule per update -/

namespace Unchanged

variable {f : Footprint} {s t : State}

theorem refl (f : Footprint) (s : State) : Unchanged f s s := by
  constructor <;> intros <;> rfl

theorem setV {x : Nibble} (h : Unchanged f s t) (hx : x ∈ f.regs) (b : Byte) : Unchanged f s (t.setV x b) :=
  { h with
    regs := fun y hy =>
      (State.getV_setV_of_ne t b fun e : y = x => hy (e ▸ hx)).trans (h.regs y hy) }

theorem setVF (h : Unchanged f s t) (hF : 0xF ∈ f.regs) (b : Byte) : Unchanged f s (t.setVF b) := h.setV hF b

theorem setI (h : Unchanged f s t) (hi : f.i = true) (a : Word) : Unchanged f s (t.setI a) :=
  { h with i := fun hf => absurd hi (by simp [hf]) }

theorem setPc (h : Unchanged f s t) (hpc : f.pc = true) (a : Word) : Unchanged f s (t.setPc a) :=
  { h with pc := fun hf => absurd hpc (by simp [hf]) }

theorem setDt (h : Unchanged f s t) (hdt : f.dt = true) (b : Byte) : Unchanged f s (t.setDt b) :=
  { h with dt := fun hf => absurd hdt (by simp [hf]) }

theorem setSt (h : Unchanged f s t) (hst : f.st = true) (b : Byte) : Unchanged f s (t.setSt b) :=
  { h with st := fun hf => absurd hst (by simp [hf]) }

theorem setStack (h : Unchanged f s t) (hs : f.stack = true) (entries : Vector Word 16) (n : Fin 17) :
    Unchanged f s (t.setStack entries n) :=
  { h with
    stack := fun hf => absurd hs (by simp [hf])
    sp := fun hf => absurd hs (by simp [hf]) }

theorem setDisp (h : Unchanged f s t) (hd : f.disp = true) (d : Display) : Unchanged f s (t.setDisp d) :=
  { h with disp := fun hf => absurd hd (by simp [hf]) }

theorem setRandom (h : Unchanged f s t) (hr : f.random = true) (bs : List Byte) (n : Nat) :
    Unchanged f s (t.setRandom bs n) :=
  { h with
    rand := fun hf => absurd hr (by simp [hf])
    draws := fun hf => absurd hr (by simp [hf]) }

theorem setWaiting (h : Unchanged f s t) (ho : f.outside = true) (w : Option Nibble) :
    Unchanged f s (t.setWaiting w) :=
  { h with waiting := fun hf => absurd ho (by simp [hf]) }

theorem setKeys (h : Unchanged f s t) (ho : f.outside = true) (ks : Vector Bool 16) : Unchanged f s (t.setKeys ks) :=
  { h with keys := fun hf => absurd ho (by simp [hf]) }

theorem setHost (h : Unchanged f s t) (ho : f.outside = true) (es : List HostEvent) : Unchanged f s (t.setHost es) :=
  { h with host := fun hf => absurd ho (by simp [hf]) }

/-- A store of as many bytes as the footprint has, at the footprint's address. -/
theorem storeBytes {bs : List Byte} (h : Unchanged f s t) (hlen : bs.length = f.storeLen) :
    Unchanged f s (t.storeBytes f.storeAt bs) :=
  { h with
    mem := fun a ha => by
      rw [State.readByte_storeBytes, dif_neg (hlen ▸ ha)]
      exact h.mem a ha }

/-! ### The shared operations -/

theorem skipIf (h : Unchanged f s t) (hpc : f.pc = true) (c : Bool) : Unchanged f s (t.skipIf c) := by
  rw [State.skipIf_eq]
  exact h.setPc hpc _

theorem resultThenFlag {x : Nibble} (h : Unchanged f s t) (hx : x ∈ f.regs) (hF : 0xF ∈ f.regs) (result flag : Byte) :
    Unchanged f s (t.resultThenFlag x result flag) :=
  (h.setV hx result).setVF hF flag

theorem flagThenShift {x : Nibble} (h : Unchanged f s t) (hx : x ∈ f.regs) (hF : 0xF ∈ f.regs)
    (flag shift : Byte → Byte) : Unchanged f s (t.flagThenShift x flag shift) := by
  unfold State.flagThenShift
  cases t.params.aliasOrder <;> exact (h.setVF hF _).setV hx _

/-- A load of a register block writes the registers of the block only (R198). -/
theorem loadRegs {x : Nibble} (h : Unchanged f s t)
    (hx : ∀ j ∈ List.range (x.toNat + 1), BitVec.ofNat 4 j ∈ f.regs) : Unchanged f s (t.loadRegs x) := by
  unfold State.loadRegs
  generalize List.range (x.toNat + 1) = js at hx ⊢
  induction js generalizing t with
  | nil => exact h
  | cons j js ih =>
    rw [List.forall_mem_cons] at hx
    obtain ⟨hj, hjs⟩ := hx
    exact ih (h.setV hj _) hjs

theorem push {w : Word} {u : State} (h : Unchanged f s t) (hs : f.stack = true) (hp : t.push w = some u) :
    Unchanged f s u := by
  obtain ⟨_, rfl⟩ := State.push_eq_some hp
  exact h.setStack hs _ _

theorem pop {w : Word} {u : State} (h : Unchanged f s t) (hs : f.stack = true) (hp : t.pop = some (w, u)) :
    Unchanged f s u := by
  obtain ⟨_, -, rfl⟩ := State.pop_eq_some hp
  exact h.setStack hs _ _

/-- The key wait writes its register and the outside's side only (R191, R253). -/
theorem waitForKey {x : Nibble} (h : Unchanged f s t) (hx : x ∈ f.regs) (ho : f.outside = true) :
    Unchanged f s (waitForKey x t) := by
  obtain ⟨k, ks, es, -, hw⟩ | ⟨ks, es, -, hw⟩ := waitForKey_cases x t <;> rw [hw]
  · exact (((h.setV hx _).setKeys ho ks).setHost ho es).setWaiting ho none
  · exact ((h.setKeys ho ks).setHost ho es).setWaiting ho (some x)

end Unchanged

/-! ### Call and return, for any predicate of the next state -/

theorem answers_execRet_of_pop {P : State → Prop} {s : State} (h : ∀ a t, s.pop = some (a, t) → P (t.setPc a)) :
    Answers P (execRet s) := by
  unfold execRet
  cases hp : s.pop with
  | none => trivial
  | some p => exact h p.1 p.2 hp

theorem answers_execCall_of_push {P : State → Prop} {nnn : Addr12} {s : State}
    (h : ∀ t, s.push s.pc = some t → P (t.setPc (addrOf nnn))) : Answers P (execCall nnn s) := by
  unfold execCall
  cases hp : s.push s.pc with
  | none => trivial
  | some t => exact h t hp

/-- A checked instruction whose check passed (R226). -/
theorem answers_checked_of_none {P : State → Prop} {f : Option Fault} {t : State} (h : f = none → P t) :
    Answers P (checked f t) := by
  cases f with
  | none => exact h rfl
  | some r => trivial

/-! ### The frame of an instruction -/

/-- R41, the columns written: the updates of an instruction all lie in its footprint. -/
theorem answers_exec_unchanged (i : Instr) (s : State) : Answers (Unchanged (footprint s i) s) (exec i s) := by
  have h := Unchanged.refl (footprint s i) s
  cases i with
  | cls => exact h.setDisp rfl _
  | ret => exact answers_execRet_of_pop fun a _ hp => (h.pop rfl hp).setPc rfl a
  | call nnn => exact answers_execCall_of_push fun _ hp => (h.push rfl hp).setPc rfl (addrOf nnn)
  | jp | jpV0 => exact h.setPc rfl _
  | seVxKk | sneVxKk | seVxVy | sneVxVy => exact h.skipIf rfl _
  | skp | sknp => exact answers_checked (h.skipIf rfl _)
  | ldVxKk | addVxKk | ldVxVy | orVxVy | andVxVy | xorVxVy | ldVxDt => exact h.setV (.head _) _
  | addVxVy | subVxVy | subnVxVy => exact h.resultThenFlag (.head _) (.tail _ (.head _)) _ _
  | shrVx | shlVx => exact h.flagThenShift (.head _) (.tail _ (.head _)) _ _
  | ldINnn | addIVx | ldFVx => exact h.setI rfl _
  | rnd => exact (h.setRandom rfl _ _).setV (.head _) _
  | drw => exact answers_checked ((h.setDisp rfl _).setVF (.head _) _)
  | ldVxK => exact h.waitForKey (.head _) rfl
  | ldDtVx => exact h.setDt rfl _
  | ldStVx => exact h.setSt rfl _
  | ldBVx => exact answers_checked (h.storeBytes (length_bcdDigits _))
  | ldMemVx x => exact answers_checked (h.storeBytes (s.length_regBlock x))
  | ldVxMem => exact answers_checked (h.loadRegs fun _ hj => List.mem_map_of_mem hj)

/-! ### The bounds, update by update

`State.Inv` reads memory, `pc` and the stack only, so an update of anything else keeps it by definition. -/

theorem inv_setPc {s : State} {a : Word} (h : s.Inv) (ha : a.toNat ≤ 0x10FE) : (s.setPc a).Inv :=
  let ⟨hmem, _, hstack⟩ := h
  ⟨hmem, ha, hstack⟩

theorem inv_storeBytes {s : State} {a : Nat} {bs : List Byte} (h : s.Inv) (ha : a + bs.length ≤ Config.memSize) :
    (s.storeBytes a bs).Inv :=
  let ⟨hmem, hpc, hstack⟩ := h
  ⟨Memory.wf_writeBytes ha hmem, hpc, hstack⟩

theorem inv_push {s t : State} {w : Word} (h : s.Inv) (hw : w.toNat ≤ 0x1000) (hp : s.push w = some t) : t.Inv := by
  obtain ⟨hmem, hpc, hstack⟩ := h
  obtain ⟨_, rfl⟩ := State.push_eq_some hp
  refine ⟨hmem, hpc, fun j (hj : j.val < s.sp.val + 1) => ?_⟩
  simp only [State.setStack_stack, Fin.getElem_fin, Vector.getElem_set]
  split
  · exact hw
  · exact hstack j (by omega)

theorem inv_pop {s t : State} {w : Word} (h : s.Inv) (hp : s.pop = some (w, t)) : w.toNat ≤ 0x1000 ∧ t.Inv := by
  obtain ⟨hmem, hpc, hstack⟩ := h
  obtain ⟨_, rfl, rfl⟩ := State.pop_eq_some hp
  exact ⟨hstack ⟨s.sp.val - 1, by omega⟩ (by simp only; omega),
    hmem, hpc, fun j (hj : j.val < s.sp.val - 1) => hstack j (by omega)⟩

theorem inv_advance {s : State} (h : s.Inv) (hpc : s.pc.toNat ≤ 0x1000) : s.advance.Inv := by
  refine inv_setPc h ?_
  change s.advance.pc.toNat ≤ 0x10FE
  rw [State.toNat_advance]
  omega

/-- A skip is one more advance (R110). -/
theorem inv_skipIf {s : State} (h : s.Inv) (hpc : s.pc.toNat ≤ 0x1000) (c : Bool) : (s.skipIf c).Inv := by
  cases c with
  | false => exact h
  | true => exact inv_advance h hpc

theorem inv_flagThenShift {s : State} (h : s.Inv) (x : Nibble) (flag shift : Byte → Byte) :
    (s.flagThenShift x flag shift).Inv := by
  unfold State.flagThenShift
  cases s.params.aliasOrder <;> exact h

theorem inv_loadRegs {s : State} (h : s.Inv) (x : Nibble) : (s.loadRegs x).Inv := by
  obtain ⟨v, hv⟩ := s.loadRegs_eq_withV x
  rw [hv]
  exact h

theorem inv_waitForKey {s : State} (h : s.Inv) (x : Nibble) : (waitForKey x s).Inv := by
  obtain ⟨k, ks, es, -, hw⟩ | ⟨ks, es, -, hw⟩ := waitForKey_cases x s <;> rw [hw] <;> exact h

/-- A store at `I` whose range has been checked stays inside the memory (R51). -/
theorem answers_checked_storeBytes {s : State} {op : Word} {bs : List Byte} {n : Nat} (h : s.Inv)
    (hlen : bs.length = n + 1) :
    Answers State.Inv (checked (s.dataFault op (n + 1)) (s.storeBytes (s.dataAddr 0) bs)) := by
  refine answers_checked_of_none fun hf => inv_storeBytes h ?_
  rw [State.dataFault_eq_none] at hf
  simp only [State.dataAddr, Config.memSize]
  omega

/-! ### The bounds through an instruction, a cycle and a step -/

/-- The largest address of an indexed jump is 0xFFF + 0xFF (R24, R151). -/
theorem toNat_addrOf_add_wide_le (nnn : Addr12) (b : Byte) : (addrOf nnn + wide b).toNat ≤ 0x10FE := by
  have hn := nnn.isLt
  have hb := b.isLt
  rw [BitVec.toNat_add, toNat_addrOf, toNat_wide]
  omega

/-- An instruction runs with pc advanced past a fetchable address, so at most 0x1000, and keeps the bounds. -/
theorem answers_exec_inv (i : Instr) {s : State} (h : s.Inv) (hpc : s.pc.toNat ≤ 0x1000) :
    Answers State.Inv (exec i s) := by
  have haddr (nnn : Addr12) : (addrOf nnn).toNat ≤ 0x10FE := by
    have := nnn.isLt
    rw [toNat_addrOf]
    omega
  cases i with
  | ret =>
    refine answers_execRet_of_pop fun a t hp => ?_
    obtain ⟨ha, ht⟩ := inv_pop h hp
    exact inv_setPc ht (by omega)
  | call nnn => exact answers_execCall_of_push fun t hp => inv_setPc (inv_push h hpc hp) (haddr nnn)
  | jp nnn => exact inv_setPc h (haddr nnn)
  | jpV0 nnn => exact inv_setPc h (toNat_addrOf_add_wide_le nnn _)
  | seVxKk | sneVxKk | seVxVy | sneVxVy => exact inv_skipIf h hpc _
  | skp | sknp => exact answers_checked (inv_skipIf h hpc _)
  | shrVx x | shlVx x => exact inv_flagThenShift h x _ _
  | ldVxK x => exact inv_waitForKey h x
  | drw => exact answers_checked h
  | ldBVx => exact answers_checked_storeBytes h (length_bcdDigits _)
  | ldMemVx x => exact answers_checked_storeBytes h (s.length_regBlock x)
  | ldVxMem x => exact answers_checked (inv_loadRegs h x)
  | _ => exact h

/-- An address that can be fetched from is at most 0xFFE, so the advanced pc is at most 0x1000 (R24, R53). -/
theorem toNat_pc_le_of_fetch {s : State} {op : Word} (hf : fetch s = .ok op) : s.pc.toNat ≤ 0xFFE := by
  obtain ⟨hpc, -⟩ := fetch_eq_ok.mp hf
  omega

theorem toNat_advance_le_of_fetch {s : State} {op : Word} (hf : fetch s = .ok op) : s.advance.pc.toNat ≤ 0x1000 := by
  have hpc := toNat_pc_le_of_fetch hf
  rw [State.toNat_advance]
  omega

theorem inv_advance_of_fetch {s : State} {op : Word} (h : s.Inv) (hf : fetch s = .ok op) : s.advance.Inv :=
  inv_advance h ((toNat_pc_le_of_fetch hf).trans (by decide))

theorem inv_cycle {s t : State} (h : s.Inv) (hc : cycle s = .next t) : t.Inv := by
  obtain ⟨r, -, -, rfl⟩ | ⟨op, r, hf, -, -, rfl⟩ | ⟨op, hf, -, rfl⟩ | ⟨op, i, hf, -, hx⟩ := cycle_eq_next hc
  · exact h
  · exact inv_advance_of_fetch h hf
  · exact inv_advance_of_fetch h hf
  · exact (answers_iff.mp (answers_exec_inv i (inv_advance_of_fetch h hf) (toNat_advance_le_of_fetch hf))).2 t hx

/-- A renderer's read changes nothing, but that the driver may add a report (R163, R225). -/
theorem renderPixel_eq_next {x y : Nat} {s t : State} (h : renderPixel x y s = .next t) :
    t = s ∨ ∃ r, t = s.addFault r := by
  unfold renderPixel at h
  split at h
  · exact .inl (Host.Outcome.next.inj h).symm
  · exact .inr ⟨_, (reportFault_eq_next.mp h).2⟩

theorem inv_hostMove {e : HostEvent} {s t : State} (h : s.Inv) (hm : hostMove e s = .next t) : t.Inv := by
  cases e with
  | cycle => exact inv_cycle h hm
  | pixel x y => obtain rfl | ⟨r, rfl⟩ := renderPixel_eq_next hm <;> exact h
  | _ => obtain rfl := Host.Outcome.next.inj hm; exact h

theorem inv_step {s t : State} (h : s.Inv) (hs : step s = .next t) : t.Inv := by
  obtain ⟨x, -, hw⟩ | ⟨-, -, hc⟩ | ⟨e, es, -, -, hm⟩ := step_cases s
  · obtain rfl := Host.Outcome.next.inj (hw.symm.trans hs)
    exact inv_waitForKey h x
  · exact inv_cycle h (hc.symm.trans hs)
  · exact inv_hostMove (s := s.setHost es) h (hm.symm.trans hs)

/-! ### The reset state -/

/-- Memory lists nothing at reset: every byte is the font's or 0 (R40). -/
theorem readByte_reset (a : Nat) : State.reset.readByte a = Memory.unlisted a := rfl

/-- Above the font an unlisted address reads 0. -/
theorem unlisted_eq_zero {a : Nat} (h : 80 ≤ a) : Memory.unlisted a = 0 :=
  List.getD_eq_default Config.fontBytes 0 h

theorem isOn_reset (px : Fin 64) (py : Fin 32) : State.reset.disp.isOn px py = false :=
  Display.isOn_clear State.reset.disp px py

theorem getV_reset (x : Nibble) : State.reset.getV x = 0 := Vector.getElem_replicate x.isLt

theorem stack_reset (j : Fin 16) : State.reset.stack[j] = 0 := Vector.getElem_replicate j.isLt

end Sys2Proof.Machine

open Sys2Proof Sys2Proof.Machine

/-- Settles O55: `pc` is at most 0x1000 when an instruction runs, a push stores no more, and a store is checked first. -/
theorem everyStepKeepsTheBounds : Obligations.EveryStepKeepsTheBounds := fun _ _ => inv_step

/-- Settles O54, from the frame rule of each update the instruction makes. -/
theorem instructionsWriteOnlyTheirColumns : Obligations.InstructionsWriteOnlyTheirColumns :=
  fun i s => (answers_iff.mp (answers_exec_unchanged i s)).2

/-- Settles O1: every field of the reset state is a constant, and memory lists no cell. -/
theorem resetStateHoldsSpecValues : Obligations.ResetStateHoldsSpecValues :=
  ⟨getV_reset, rfl, rfl, rfl, rfl, rfl, stack_reset, isOn_reset, fun _ ha _ => unlisted_eq_zero ha⟩

/-- Settles O2: reset memory reads as unlisted, which from address 0 is the font table. -/
theorem resetMemoryHoldsFont : Obligations.ResetMemoryHoldsFont := by
  unfold Obligations.ResetMemoryHoldsFont
  simp only [funext readByte_reset]
  decide

/-- Settles O56: no cell is listed, pc is the load offset and no stack entry is valid. -/
theorem resetMeetsTheBounds : Obligations.ResetMeetsTheBounds :=
  ⟨⟨.nil, fun _ hc => absurd hc List.not_mem_nil⟩, by decide, fun _ hj => absurd hj (Nat.not_lt_zero _)⟩
end

section
/-! # Memory: what a fetch reads, and what a store leaves for it to read

A fetch is two byte reads (R52), so what `Fx33` or `Fx55` leaves for a later fetch is the byte each of them leaves at every
address. -/

namespace Sys2Proof.Machine

open Sys2Proof.Claims

/-- R52 in numbers: where both bytes can be fetched, the one at the lower address is the high byte. -/
theorem exists_fetch_eq_ok {s : State} (hpc : s.pc.toNat ≤ 4094) : ∃ op, fetch s = .ok op ∧
    op.toNat = (s.readByte s.pc.toNat).toNat * 256 + (s.readByte (s.pc.toNat + 1)).toNat :=
  ⟨_, fetch_eq_ok.mpr ⟨by omega, rfl⟩, toNat_wordOfBytes _ _⟩

/-- A fetch after a store: pc may be set anywhere it can fetch from, since memory does not depend on it. -/
theorem exists_fetch_eq_ok_of_readByte {t : State} {byteAt : Nat → Nat} {p : Word} (hp : p.toNat ≤ 4094)
    (h : ∀ a, (t.readByte a).toNat = byteAt a) :
    ∃ op, fetch { t with pc := p } = .ok op ∧ op.toNat = byteAt p.toNat * 256 + byteAt (p.toNat + 1) := by
  rw [← h, ← h]
  exact exists_fetch_eq_ok (s := t.setPc p) hp

/-! ### What the two stores leave -/

theorem exec_ldBVx_eq_next {x : Nibble} {s t : State} (h : exec (.ldBVx x) s = .next t) :
    t = s.storeBytes (s.dataAddr 0) (bcdDigits (s.getV x)) :=
  (checked_eq_next.mp h).2.symm

theorem exec_ldMemVx_eq_next {x : Nibble} {s t : State} (h : exec (.ldMemVx x) s = .next t) :
    t = s.storeBytes (s.dataAddr 0) (s.regBlock x) :=
  (checked_eq_next.mp h).2.symm

theorem State.dataAddr_eq_add (s : State) (j : Nat) : s.dataAddr j = s.dataAddr 0 + j := rfl

theorem State.readByte_storeBytes_add (s : State) (a : Nat) {bs : List Byte} {j : Nat} (hj : j < bs.length) :
    (s.storeBytes a bs).readByte (a + j) = bs[j] := by
  rw [State.readByte_storeBytes, dif_pos (by omega)]
  simp only [Nat.add_sub_cancel_left]

theorem State.readByte_storeBytes_of_outside (s : State) {a k : Nat} {bs : List Byte}
    (hk : ¬(a ≤ k ∧ k < a + bs.length)) : (s.storeBytes a bs).readByte k = s.readByte k := by
  rw [State.readByte_storeBytes, dif_neg hk]

/-- R196 read back: hundreds, tens and units at `I`, `I + 1`, `I + 2`, each of which fits in a byte, and every other byte as
it was. -/
theorem toNat_readByte_storeBytes_bcdDigits (s : State) (x : Nibble) (a : Nat) :
    ((s.storeBytes (s.dataAddr 0) (bcdDigits (s.getV x))).readByte a).toNat = byteAfterBcd s x a := by
  have hb := (s.getV x).isLt
  by_cases h : s.dataAddr 0 ≤ a ∧ a < s.dataAddr 0 + 3
  · obtain ⟨j, rfl⟩ := Nat.exists_eq_add_of_le h.1
    have hj : j < (bcdDigits (s.getV x)).length := by rw [length_bcdDigits]; omega
    rw [State.readByte_storeBytes_add s _ hj]
    obtain rfl | rfl | rfl : j = 0 ∨ j = 1 ∨ j = 2 := by omega
    all_goals
      simp [bcdDigits, byteAfterBcd, State.dataAddr]
      omega
  · rw [State.readByte_storeBytes_of_outside s h, byteAfterBcd, s.dataAddr_eq_add 1, s.dataAddr_eq_add 2]
    rw [if_neg (by omega), if_neg (by omega), if_neg (by omega)]

/-- R197 read back: `V0` .. `Vx` from `I` on, and every other byte as it was. -/
theorem toNat_readByte_storeBytes_regBlock (s : State) (x : Nibble) (a : Nat) :
    ((s.storeBytes (s.dataAddr 0) (s.regBlock x)).readByte a).toNat = byteAfterBlock s x a := by
  unfold byteAfterBlock
  rw [s.dataAddr_eq_add x.toNat]
  split_ifs with h
  · obtain ⟨j, rfl⟩ := Nat.exists_eq_add_of_le h.1
    have hj : j < (s.regBlock x).length := by rw [State.length_regBlock]; omega
    rw [State.readByte_storeBytes_add s _ hj, State.getElem_regBlock, Nat.add_sub_cancel_left]
  · rw [State.readByte_storeBytes_of_outside s (by rw [State.length_regBlock]; omega)]

end Sys2Proof.Machine

open Sys2Proof Sys2Proof.Machine

/-- Settles O4: the one check of a fetch is whether `pc + 1` is an address. -/
theorem fetchReadsTwoBytesBigEndian : Obligations.FetchReadsTwoBytesBigEndian :=
  fun _ => ⟨exists_fetch_eq_ok, fun hpc => fetch_eq_error.mpr ⟨by omega, rfl⟩⟩

/-- Settles O44: a fetch reads bytes, and each store leaves at every address the byte that is claimed there. -/
theorem storedBytesAreFetched : Obligations.StoredBytesAreFetched := by
  intro x s t p hp
  constructor
  · intro h
    obtain rfl := exec_ldBVx_eq_next h
    exact exists_fetch_eq_ok_of_readByte hp (toNat_readByte_storeBytes_bcdDigits s x)
  · intro h
    obtain rfl := exec_ldMemVx_eq_next h
    exact exists_fetch_eq_ok_of_readByte hp (toNat_readByte_storeBytes_regBlock s x)
end

section
/-! # Encoding: the decoder, the encoder and the opcode map say the same thing

The encoder is shown to be the decoder's inverse in both directions (`decodeWord_eq_some_iff`). In one direction an opcode
is built from its fields, in the other it is put together again from them: once its family nibble is known, its fields
stand at the places of R74. The opcode map and the groups of R78 follow. -/

namespace Sys2Proof

/-! ### From an instruction to its opcode and back -/

/-- R74, R75: the family nibble selects the row's family, and the fields of the encoding are the operands. -/
theorem decodeWord_encode (i : Instr) : decodeWord (encode i) = some i := by
  cases i with
  | cls | ret => rfl
  | jp | call | ldINnn | jpV0 | seVxKk | sneVxKk | ldVxKk | addVxKk | rnd | seVxVy | sneVxVy | drw =>
    simp [encode, decodeWord]
  | skp | sknp => simp [encode, decodeWord, decodeFamilyE]
  | ldVxVy | orVxVy | andVxVy | xorVxVy | addVxVy | subVxVy | shrVx | subnVxVy | shlVx =>
    simp [encode, decodeWord, decodeFamily8]
  | _ => simp [encode, decodeWord, decodeFamilyF]

/-- Two bytes decode as their word does, whatever follows them. -/
theorem decode_eq_ok_iff {hi lo : Byte} {rest bs : List Byte} {i : Instr} :
    decode (hi :: lo :: rest) = .ok (i, bs) ↔ decodeWord (wordOfBytes hi lo) = some i ∧ rest = bs := by
  simp only [decode]
  cases decodeWord (wordOfBytes hi lo) <;> simp

theorem decode_eq_unrecognised_iff {hi lo : Byte} {rest : List Byte} {op : Word} :
    decode (hi :: lo :: rest) = .error (.unrecognised op) ↔
      wordOfBytes hi lo = op ∧ decodeWord (wordOfBytes hi lo) = none := by
  simp only [decode]
  cases decodeWord (wordOfBytes hi lo) <;> simp

theorem decode_bytesOfWord_append {op : Word} {i : Instr} (h : decodeWord op = some i) (rest : List Byte) :
    decode (bytesOfWord op ++ rest) = .ok (i, rest) :=
  decode_eq_ok_iff.mpr ⟨by rw [wordOfBytes_bytesOfWord, h], rfl⟩

/-! ### An opcode put together from its fields -/

theorem append_nnn_eq {op : Word} {h : Nibble} (hh : fieldH op = h) : h ++ fieldNnn op = op :=
  hh ▸ (word_eq_h_nnn op).symm

theorem append_x_kk_eq {op : Word} {h : Nibble} (hh : fieldH op = h) : h ++ fieldX op ++ fieldKk op = op :=
  hh ▸ (word_eq_h_x_kk op).symm

theorem append_x_y_n_eq {op : Word} {h : Nibble} (hh : fieldH op = h) :
    h ++ fieldX op ++ fieldY op ++ fieldN op = op :=
  hh ▸ (word_eq_nibbles op).symm

theorem nibble_eq_ofNat {n : Nibble} {k : Nat} (h : n.toNat = k) : n = BitVec.ofNat 4 k := by
  rw [← h, BitVec.ofNat_toNat, BitVec.setWidth_eq]

/-! ### From an opcode to its instruction and back, family by family -/

theorem encode_of_decodeFamily0 {nnn : Addr12} {i : Instr} (h : decodeFamily0 nnn = some i) :
    encode i = 0x0#4 ++ nnn := by
  unfold decodeFamily0 at h
  split_ifs at h with h1 h2
  · cases h; rw [h1]; rfl
  · cases h; rw [h2]; rfl

theorem encode_of_decodeFamily8 {x y n : Nibble} {i : Instr} (h : decodeFamily8 x y n = some i) :
    encode i = 0x8#4 ++ x ++ y ++ n := by
  unfold decodeFamily8 at h
  split at h
  case h_10 => cases h
  all_goals
    rename_i hn
    rw [nibble_eq_ofNat hn, ← Option.some.inj h]
    rfl

theorem encode_of_decodeFamilyE {x : Nibble} {kk : Byte} {i : Instr} (h : decodeFamilyE x kk = some i) :
    encode i = 0xE#4 ++ x ++ kk := by
  unfold decodeFamilyE at h
  split_ifs at h with hk hk
  all_goals
    rw [hk, ← Option.some.inj h]
    rfl

theorem encode_of_decodeFamilyF {x : Nibble} {kk : Byte} {i : Instr} (h : decodeFamilyF x kk = some i) :
    encode i = 0xF#4 ++ x ++ kk := by
  unfold decodeFamilyF at h
  split_ifs at h with hk hk hk hk hk hk hk hk hk
  all_goals
    rw [hk, ← Option.some.inj h]
    rfl

/-- No bit of a recognised opcode is lost (R77). -/
theorem encode_of_decodeWord {op : Word} {i : Instr} (h : decodeWord op = some i) : encode i = op := by
  unfold decodeWord at h
  -- the cases are the families 0 to F, in order
  split at h
  case h_1 hh => exact (encode_of_decodeFamily0 h).trans (append_nnn_eq (nibble_eq_ofNat hh))
  case h_9 hh => exact (encode_of_decodeFamily8 h).trans (append_x_y_n_eq (nibble_eq_ofNat hh))
  case h_15 hh => exact (encode_of_decodeFamilyE h).trans (append_x_kk_eq (nibble_eq_ofNat hh))
  case h_16 =>
    have hlt := (fieldH op).isLt
    have hh : (fieldH op).toNat = 0xF := by
      simp only [imp_false] at *
      omega
    exact (encode_of_decodeFamilyF h).trans (append_x_kk_eq (nibble_eq_ofNat hh))
  case h_6 hh | h_10 hh =>
    split_ifs at h with hn
    rw [← append_x_y_n_eq (nibble_eq_ofNat hh), hn, ← Option.some.inj h]
    rfl
  case h_14 hh =>
    rw [← Option.some.inj h]
    exact append_x_y_n_eq (nibble_eq_ofNat hh)
  case h_2 hh | h_3 hh | h_11 hh | h_12 hh =>
    rw [← Option.some.inj h]
    exact append_nnn_eq (nibble_eq_ofNat hh)
  case h_4 hh | h_5 hh | h_7 hh | h_8 hh | h_13 hh =>
    rw [← Option.some.inj h]
    exact append_x_kk_eq (nibble_eq_ofNat hh)

/-- R74, R75: the encoding is the one opcode that decodes to an instruction. -/
theorem decodeWord_eq_some_iff {op : Word} {i : Instr} : decodeWord op = some i ↔ encode i = op :=
  ⟨encode_of_decodeWord, fun h => h ▸ decodeWord_encode i⟩

/-! ### The opcode map -/

open Laws.EncodeMatchesRow in
/-- The fixed bits of an encoding are those of its row (R76). -/
theorem encode_matchesRow : ∀ i, Statement i
  | .cls => cls | .ret => ret
  | .jp nnn => jp nnn | .call nnn => call nnn | .ldINnn nnn => ldINnn nnn | .jpV0 nnn => jpV0 nnn
  | .seVxKk x kk => seVxKk x kk | .sneVxKk x kk => sneVxKk x kk | .ldVxKk x kk => ldVxKk x kk
  | .addVxKk x kk => addVxKk x kk | .rnd x kk => rnd x kk
  | .seVxVy x y => seVxVy x y | .sneVxVy x y => sneVxVy x y
  | .ldVxVy x y => ldVxVy x y | .orVxVy x y => orVxVy x y | .andVxVy x y => andVxVy x y
  | .xorVxVy x y => xorVxVy x y | .addVxVy x y => addVxVy x y | .subVxVy x y => subVxVy x y
  | .shrVx x y => shrVx x y | .subnVxVy x y => subnVxVy x y | .shlVx x y => shlVx x y
  | .drw x y n => drw x y n
  | .skp x => skp x | .sknp x => sknp x
  | .ldVxDt x => ldVxDt x | .ldVxK x => ldVxK x | .ldDtVx x => ldDtVx x | .ldStVx x => ldStVx x
  | .addIVx x => addIVx x | .ldFVx x => ldFVx x | .ldBVx x => ldBVx x | .ldMemVx x => ldMemVx x
  | .ldVxMem x => ldVxMem x

/-- A mask with a whole field of ones keeps the field. -/
theorem fieldH_of_mask {op m v : Word} (h : op &&& m = v) (hm : fieldH m = 0xF#4) : fieldH op = fieldH v := by
  rw [← h, fieldH, fieldH, BitVec.extractLsb'_and, ← fieldH, ← fieldH, hm]
  exact (BitVec.and_allOnes).symm

theorem fieldN_of_mask {op m v : Word} (h : op &&& m = v) (hm : fieldN m = 0xF#4) : fieldN op = fieldN v := by
  rw [← h, fieldN, fieldN, BitVec.extractLsb'_and, ← fieldN, ← fieldN, hm]
  exact (BitVec.and_allOnes).symm

theorem fieldKk_of_mask {op m v : Word} (h : op &&& m = v) (hm : fieldKk m = 0xFF#8) : fieldKk op = fieldKk v := by
  rw [← h, fieldKk, fieldKk, BitVec.extractLsb'_and, ← fieldKk, ← fieldKk, hm]
  exact (BitVec.and_allOnes).symm

/-! An opcode from its fixed bits `v` under the mask of each format, and its operands. -/

theorem eq_of_mask {op v : Word} (h : op &&& 0xFFFF = v) : v = op :=
  h ▸ BitVec.and_allOnes

theorem append_nnn_of_mask {op v : Word} (h : op &&& 0xF000 = v) : fieldH v ++ fieldNnn op = op :=
  append_nnn_eq (fieldH_of_mask h rfl)

theorem append_x_kk_of_mask {op v : Word} (h : op &&& 0xF000 = v) : fieldH v ++ fieldX op ++ fieldKk op = op :=
  append_x_kk_eq (fieldH_of_mask h rfl)

theorem append_x_y_n_of_mask {op v : Word} (h : op &&& 0xF000 = v) :
    fieldH v ++ fieldX op ++ fieldY op ++ fieldN op = op :=
  append_x_y_n_eq (fieldH_of_mask h rfl)

theorem append_x_y_of_mask {op v : Word} (h : op &&& 0xF00F = v) :
    fieldH v ++ fieldX op ++ fieldY op ++ fieldN v = op :=
  fieldN_of_mask h rfl ▸ append_x_y_n_eq (fieldH_of_mask h rfl)

theorem append_x_of_mask {op v : Word} (h : op &&& 0xF0FF = v) : fieldH v ++ fieldX op ++ fieldKk v = op :=
  fieldKk_of_mask h rfl ▸ append_x_kk_eq (fieldH_of_mask h rfl)

/-- The instruction of each row of R76, in the table's order, with the fields of `op` as its operands. -/
def rowInstrs (op : Word) : List Instr :=
  let x := fieldX op
  let y := fieldY op
  let kk := fieldKk op
  let nnn := fieldNnn op
  [.cls, .ret, .jp nnn, .call nnn, .seVxKk x kk, .sneVxKk x kk, .seVxVy x y, .ldVxKk x kk, .addVxKk x kk,
    .ldVxVy x y, .orVxVy x y, .andVxVy x y, .xorVxVy x y, .addVxVy x y, .subVxVy x y, .shrVx x y, .subnVxVy x y,
    .shlVx x y, .sneVxVy x y, .ldINnn nnn, .jpV0 nnn, .rnd x kk, .drw x y (fieldN op), .skp x, .sknp x,
    .ldVxDt x, .ldVxK x, .ldDtVx x, .ldStVx x, .addIVx x, .ldFVx x, .ldBVx x, .ldMemVx x, .ldVxMem x]

theorem rowNumber_rowInstrs (op : Word) : (rowInstrs op).map Instr.rowNumber = List.range 34 := rfl

/-- An opcode with a row's fixed bits is the encoding of the row's instruction. -/
theorem encode_rowInstrs (op : Word) :
    List.Forall₂ (fun row i => op &&& row.mask = row.value → encode i = op) opcodeMap (rowInstrs op) := by
  have A {v : Word} := @append_nnn_of_mask op v
  have XK {v : Word} := @append_x_kk_of_mask op v
  have XY {v : Word} := @append_x_y_of_mask op v
  have X {v : Word} := @append_x_of_mask op v
  simp only [opcodeMap, rowInstrs, List.cons_append, List.nil_append, List.forall₂_cons, List.forall₂_nil_left_iff]
  exact ⟨eq_of_mask, eq_of_mask, A, A, XK, XK, XY, XK, XK, XY, XY, XY, XY, XY, XY, XY, XY, XY, XY, A, A, XK,
    append_x_y_n_of_mask, X, X, X, X, X, X, X, X, X, X, X, trivial⟩

/-- An opcode with the fixed bits of row `n` is the encoding of an instruction of that row. -/
theorem exists_encode_eq_of_row {op : Word} {n : Nat} {row : OpcodeRow} (hrow : opcodeMap[n]? = some row)
    (h : op &&& row.mask = row.value) : ∃ i, encode i = op ∧ i.rowNumber = n := by
  obtain ⟨hn, rfl⟩ := List.getElem?_eq_some_iff.mp hrow
  have hnum : (List.map Instr.rowNumber (rowInstrs op))[n]'hn = n := by
    simp only [rowNumber_rowInstrs, List.getElem_range]
  exact ⟨(rowInstrs op)[n]'hn, (encode_rowInstrs op).get hn hn h, (List.getElem_map _).symm.trans hnum⟩

/-- R76: the decoder and the opcode map agree on every row. -/
theorem and_mask_eq_value_iff {op : Word} {n : Nat} {row : OpcodeRow} (hrow : opcodeMap[n]? = some row) :
    op &&& row.mask = row.value ↔ ∃ i, decodeWord op = some i ∧ i.rowNumber = n := by
  simp only [decodeWord_eq_some_iff]
  refine ⟨exists_encode_eq_of_row hrow, ?_⟩
  rintro ⟨i, rfl, rfl⟩
  obtain ⟨row', hrow', h⟩ := encode_matchesRow i
  obtain rfl := Option.some.inj (hrow.symm.trans hrow')
  exact h

/-! ### The unrecognised opcodes -/

theorem toNat_fieldH (op : Word) : (fieldH op).toNat = op.toNat / 4096 := by
  have := op.isLt
  simp only [fieldH, BitVec.extractLsb'_toNat, Nat.shiftRight_eq_div_pow]
  omega

theorem toNat_fieldN (op : Word) : (fieldN op).toNat = op.toNat % 16 := by
  simp [fieldN]

theorem toNat_fieldKk (op : Word) : (fieldKk op).toNat = op.toNat % 256 := by
  simp [fieldKk]

theorem toNat_fieldNnn (op : Word) : (fieldNnn op).toNat = op.toNat % 4096 := by
  simp [fieldNnn]

theorem decodeFamily0_eq_none_iff {nnn : Addr12} : decodeFamily0 nnn = none ↔ nnn ≠ 0x0E0 ∧ nnn ≠ 0x0EE := by
  unfold decodeFamily0
  split_ifs <;> simp_all

theorem decodeFamily8_eq_none_iff {x y n : Nibble} :
    decodeFamily8 x y n = none ↔ n.toNat ∈ [8, 9, 0xA, 0xB, 0xC, 0xD, 0xF] := by
  have := n.isLt
  unfold decodeFamily8
  generalize n.toNat = k at *
  interval_cases k <;> simp

theorem decodeFamilyE_eq_none_iff {x : Nibble} {kk : Byte} :
    decodeFamilyE x kk = none ↔ kk.toNat ∉ [0x9E, 0xA1] := by
  unfold decodeFamilyE
  split_ifs <;> simp_all [← BitVec.toNat_inj]

theorem decodeFamilyF_eq_none_iff {x : Nibble} {kk : Byte} :
    decodeFamilyF x kk = none ↔ kk.toNat ∉ [0x07, 0x0A, 0x15, 0x18, 0x1E, 0x29, 0x33, 0x55, 0x65] := by
  unfold decodeFamilyF
  split_ifs <;> simp_all [← BitVec.toNat_inj]

end Sys2Proof

namespace Sys2Proof.Machine

open Sys2Proof.Claims

/-! ### The step that runs an opcode -/

theorem execute_of_decodeWord {op : Word} {i : Instr} (h : decodeWord op = some i) (s : State) :
    execute op s = exec i s := by
  simp only [execute, h]

theorem execute_of_unrecognised {op : Word} (h : decodeWord op = none) (s : State) :
    execute op s = unrecognised op s := by
  simp only [execute, h]

/-- What a cycle answers when execute, at the state `s`, answers `a`: a fault goes to the driver (R225). -/
def driverAnswer (a : Result) (s : State) : Result :=
  match a with
  | .next t => .next t
  | .fault r => reportFault r s
  | .refused r => .refused r

theorem cycle_of_fetch {s : State} {op : Word} (h : fetch s = .ok op) :
    cycle s = driverAnswer (execute op s.advance) s.advance := by
  simp only [cycle, h]
  rfl

/-- A due cycle runs at the state whose due event is used up (log 2). -/
theorem step_of_cycleIsDue {s : State} {es : List HostEvent} (h : CycleIsDue s es) : step s = cycle (s.setHost es) := by
  obtain ⟨hw, ⟨hh, rfl⟩ | hh⟩ := h
  · have hs : s.setHost [] = s := by rw [← hh]; rfl
    simp only [hs, step, turn, hw, hh]
  · simp only [step, turn, hw, hh, hostMove]

/-- R70: a due cycle whose fetch is in range executes the word at pc at the state with pc advanced. -/
theorem step_eq_driverAnswer {s : State} {es : List HostEvent} (hdue : CycleIsDue s es) (hpc : s.pc.toNat ≤ 4094) :
    step s = driverAnswer
      (execute (wordOfBytes (s.readByte s.pc.toNat) (s.readByte (s.pc.toNat + 1))) (s.setHost es).advance)
      (s.setHost es).advance :=
  (step_of_cycleIsDue hdue).trans
    (cycle_of_fetch (s := s.setHost es) (fetch_eq_ok.mpr ⟨Nat.lt_succ_of_le (Nat.succ_le_succ hpc), rfl⟩))

end Sys2Proof.Machine

open Sys2Proof Sys2Proof.Machine

/-- Settles O13: the fields of an encoding are the operands, and a word is the word of its two bytes. -/
theorem decodeOfEncodeIsInstruction : Obligations.DecodeOfEncodeIsInstruction :=
  fun i rest _ => ⟨decodeWord_encode i, decode_bytesOfWord_append (decodeWord_encode i) rest⟩

/-- Settles O14, family by family: an opcode is put together again from the fields its decoding reads. -/
theorem encodeOfDecodeIsOpcode : Obligations.EncodeOfDecodeIsOpcode := fun _ _ => encode_of_decodeWord

/-- Settles O15: decoding inverts the encoder, and an opcode has a row's fixed bits exactly when it is the encoding of the
row's instruction. -/
theorem decoderFollowsOpcodeMap : Obligations.DecoderFollowsOpcodeMap :=
  fun _ _ _ hrow => (and_mask_eq_value_iff hrow).symm

/-- Settles O16, family by family; in family 0 the opcode is its own `nnn`. -/
theorem unrecognisedOpcodesAreTheGroups : Obligations.UnrecognisedOpcodesAreTheGroups := by
  intro op
  have hlt : op.toNat / 4096 < 16 := toNat_fieldH op ▸ (fieldH op).isLt
  have hnnn : op.toNat / 4096 = 0 → op.toNat % 4096 = op.toNat := by omega
  simp only [decodeWord, toNat_fieldH]
  generalize op.toNat / 4096 = h at hlt hnnn ⊢
  interval_cases h <;> simp [decodeFamily0_eq_none_iff, decodeFamily8_eq_none_iff, decodeFamilyE_eq_none_iff,
    decodeFamilyF_eq_none_iff, ← BitVec.toNat_inj, toNat_fieldN, toNat_fieldKk, toNat_fieldNnn, hnnn]

/-- Settles O5: the step is the driver's answer to the instruction's. -/
theorem stepRunsDecodedInstruction : Obligations.StepRunsDecodedInstruction := by
  intro s es i hdue hpc hdecode
  have hstep := step_eq_driverAnswer hdue hpc
  obtain ⟨hi, -⟩ := decode_eq_ok_iff.mp hdecode
  rw [execute_of_decodeWord hi] at hstep
  refine ⟨(s.setHost es).advance, rfl, fun t hx => ?_, fun r hx => ?_, fun r hx hf => ?_, fun r hx hf => ?_⟩
  all_goals rw [hstep, hx]
  · rfl
  · rfl
  · exact reportFault_eq_fault.mpr ⟨hf, rfl⟩
  · exact reportFault_eq_next.mpr ⟨hf, rfl⟩

/-- Settles O7: execute of an unrecognised opcode depends on the policy only. -/
theorem unrecognisedOpcodeFollowsPolicy : Obligations.UnrecognisedOpcodeFollowsPolicy := by
  intro op s hop
  rw [execute_of_unrecognised hop]
  exact ⟨fun hp => by simp only [unrecognised, hp, raise], fun hp => by simp only [unrecognised, hp]⟩

/-- Settles O17, by evaluating the decoder. -/
theorem sampleOpcodesDecode : Obligations.SampleOpcodesDecode := by
  unfold Obligations.SampleOpcodesDecode
  decide

/-- Settles O60: the step is the driver's answer to the policy's. -/
theorem stepOnUnrecognisedOpcodeFollowsPolicy : Obligations.StepOnUnrecognisedOpcodeFollowsPolicy := by
  intro s es op hdue hpc hdecode
  have hstep := step_eq_driverAnswer hdue hpc
  obtain ⟨rfl, hop⟩ := decode_eq_unrecognised_iff.mp hdecode
  obtain ⟨hreport, hignore⟩ := unrecognisedOpcodeFollowsPolicy _ (s.setHost es).advance hop
  refine ⟨fun hp => ?_, fun hp hf => ?_, fun hp hf => ?_⟩ <;> rw [hstep]
  · rw [hignore hp]
    rfl
  · rw [hreport hp]
    exact reportFault_eq_fault.mpr ⟨hf, rfl⟩
  · rw [hreport hp]
    exact reportFault_eq_next.mpr ⟨hf, rfl⟩
end

section
/-! # Flow: clear, jump, call and return

What an instruction leaves is its frame (`instructionsWriteOnlyTheirColumns`); what it writes is one equation for each case
of the stack count. The round trip of R104 runs those equations in two cycles. -/

namespace Sys2Proof.Machine

open Sys2Proof.Claims

/-! ### An instruction's opcode, and its run as steps -/

/-- R74, R76: the encoding is the one opcode that decodes to an instruction. -/
theorem decodesFrom_encode (i : Instr) : DecodesFrom i (encode i) :=
  fun _ => decodeWord_eq_some_iff.trans eq_comm

/-- With nothing due of the outside, a fetched instruction that completes is the whole step (R70). -/
theorem step_of_fetch_encode {s t : State} {i : Instr} (hw : s.waiting = none) (hh : s.host = [])
    (hf : fetch s = .ok (encode i)) (hx : exec i s.advance = .next t) : step s = .next t := by
  have hs : s.setHost [] = s := by rw [← hh]; rfl
  rw [step_of_cycleIsDue ⟨hw, .inl ⟨hh, rfl⟩⟩, hs, cycle_of_fetch hf, execute_of_decodeWord (decodeWord_encode i), hx]
  rfl

theorem run_succ_of_step {M : Host.Core} {s t : M.State} (h : M.step s = .next t) (k : Nat) :
    M.run (k + 1) s = M.run k t := by
  simp only [Host.Core.run, h]

/-! ### The call stack, by its count -/

theorem exec_ret_of_pos {s : State} (h : 0 < s.sp.val) :
    exec .ret s = .next ((s.setStack s.stack ⟨s.sp.val - 1, by omega⟩).setPc (s.stack[s.sp.val - 1]'(by omega))) := by
  simp only [exec, execRet, State.pop, dif_pos h]

theorem exec_ret_of_eq_zero {s : State} (h : s.sp.val = 0) : exec .ret s = .fault (.stackUnderflow 0x00EE s.pc) := by
  simp only [exec, execRet, s.pop_eq_none.mpr h, raise, encode]

/-- The state after a call with an entry free (R103). -/
def State.called (s : State) (nnn : Addr12) (h : s.sp.val < 16) : State :=
  (s.setStack (s.stack.set s.sp.val s.pc h) ⟨s.sp.val + 1, by omega⟩).setPc (addrOf nnn)

theorem exec_call_of_lt (s : State) (nnn : Addr12) (h : s.sp.val < 16) :
    exec (.call nnn) s = .next (s.called nnn h) := by
  simp only [exec, execCall, State.push, dif_pos h, State.called]

theorem exec_call_of_eq_16 (s : State) (nnn : Addr12) (h : s.sp.val = 16) :
    exec (.call nnn) s = .fault (.stackOverflow (0x2#4 ++ nnn) s.pc) := by
  simp only [exec, execCall, (s.push_eq_none s.pc).mpr h, raise, encode]

/-- The entries after a call: the pc at the old count, the others as they were. -/
theorem getElem_stack_called (s : State) (nnn : Addr12) (h : s.sp.val < 16) (j : Fin 16) :
    (s.called nnn h).stack[j] = if j.val = s.sp.val then s.pc else s.stack[j] := by
  simp only [State.called, State.setPc_stack, State.setStack_stack, Fin.getElem_fin, Vector.getElem_set, eq_comm]

/-- R104: a return runs on the stack a call left, its own advance of pc being overwritten. It takes pc from the entry the
call wrote and puts the count back. -/
theorem exec_ret_called (s : State) (nnn : Addr12) (h : s.sp.val < 16) :
    exec .ret (s.called nnn h).advance =
      .next (((s.called nnn h).advance.setStack (s.called nnn h).stack s.sp).setPc s.pc) := by
  rw [exec_ret_of_pos (Nat.succ_pos _)]
  simp [State.called]

end Sys2Proof.Machine

open Sys2Proof Sys2Proof.Machine

/-- Settles O22: the two cycles are `exec_call_of_lt` and `exec_ret_called`, and each update between them is of pc or of the
stack. -/
theorem callThenReturnComesBack : Obligations.CallThenReturnComesBack := by
  intro s nnn hw hh _ hsp hcall hret
  have hstep1 : core.step s = .next (s.advance.called nnn hsp) :=
    step_of_fetch_encode (i := .call nnn) hw hh hcall (exec_call_of_lt s.advance nnn hsp)
  have hstep2 : core.step (s.advance.called nnn hsp) = .next _ :=
    step_of_fetch_encode (i := .ret) hw hh hret (exec_ret_called s.advance nnn hsp)
  have hentry := getElem_stack_called s.advance nnn hsp
  refine ⟨_, (run_succ_of_step hstep1 1).trans (run_succ_of_step hstep2 0), rfl, rfl,
    fun j hj => (hentry j).trans (if_pos hj), fun j hj => (hentry j).trans (if_neg hj), ?_⟩
  have h := Unchanged.refl { pc := true, stack := true } s
  exact (((((h.setPc rfl _).setStack rfl _ _).setPc rfl _).setPc rfl _).setStack rfl _ _).setPc rfl _

/-- Settles O18: the display is replaced by the cleared one. -/
theorem clsTurnsEveryPixelOff : Obligations.ClsTurnsEveryPixelOff :=
  fun s => ⟨decodesFrom_encode .cls, s.setDisp s.disp.clear, rfl, s.disp.isOn_clear,
    instructionsWriteOnlyTheirColumns .cls s _ rfl⟩

/-- Settles O19, by the stack count: one equation for a stack with an entry, one for the empty stack. -/
theorem retPopsIntoPc : Obligations.RetPopsIntoPc := by
  refine fun s => ⟨decodesFrom_encode .ret, fun hsp => ?_, exec_ret_of_eq_zero⟩
  have hx := exec_ret_of_pos hsp
  refine ⟨_, hx, rfl, fun j hj => ?_, rfl, instructionsWriteOnlyTheirColumns .ret s _ hx⟩
  simp only [State.setPc_pc, Fin.getElem_fin, hj]

/-- Settles O20: the one update is of pc, and a zero-extended address keeps its value. -/
theorem jpJumpsToNnn : Obligations.JpJumpsToNnn :=
  fun nnn s => ⟨decodesFrom_encode (.jp nnn), s.setPc (addrOf nnn), rfl, toNat_addrOf nnn,
    instructionsWriteOnlyTheirColumns (.jp nnn) s _ rfl⟩

/-- Settles O21, by the stack count: one equation below 16 entries, one at 16. -/
theorem callPushesAdvancedPc : Obligations.CallPushesAdvancedPc := by
  refine fun nnn s => ⟨decodesFrom_encode (.call nnn), fun hsp => ?_, exec_call_of_eq_16 s nnn⟩
  have hx := exec_call_of_lt s nnn hsp
  exact ⟨_, hx, rfl, toNat_addrOf nnn, getElem_stack_called s nnn hsp,
    instructionsWriteOnlyTheirColumns (.call nnn) s _ hx⟩
end

section
/-! # Skips on a register comparison

The four skips of families 3, 4, 5 and 9 are one operation, `State.skipIf`, under four conditions (R110). -/

namespace Sys2Proof.Machine

open Sys2Proof.Claims

/-- R110: an instruction that only skips moves pc by 2 exactly when its condition `p` holds, and writes nothing else. -/
theorem exists_next_of_exec_eq_skipIf {i : Instr} {s : State} {c : Bool} {p : Prop} [Decidable p]
    (hx : exec i s = .next (s.skipIf c)) (hc : c = true ↔ p) :
    ∃ t, exec i s = .next t ∧ t.pc.toNat = (s.pc.toNat + if p then 2 else 0) % 65536 ∧
      Unchanged { pc := true } s t := by
  refine ⟨s.skipIf c, hx, ?_, (Unchanged.refl _ s).skipIf rfl c⟩
  simp only [State.toNat_skipIf, hc]

end Sys2Proof.Machine

open Sys2Proof Sys2Proof.Machine

/-- Settles O24: each instruction is a skip, `3xkk` on equality with `kk` and `4xkk` on difference from it. -/
theorem immediateSkipsCompareVxWithKk : Obligations.ImmediateSkipsCompareVxWithKk :=
  fun x kk _ => ⟨decodesFrom_encode (.seVxKk x kk), decodesFrom_encode (.sneVxKk x kk),
    exists_next_of_exec_eq_skipIf rfl beq_iff_eq, exists_next_of_exec_eq_skipIf rfl bne_iff_ne⟩

/-- Settles O25: each instruction is a skip, `5xy0` on equality of the two registers and `9xy0` on their difference. -/
theorem registerSkipsCompareVxWithVy : Obligations.RegisterSkipsCompareVxWithVy :=
  fun x y _ => ⟨decodesFrom_encode (.seVxVy x y), decodesFrom_encode (.sneVxVy x y),
    exists_next_of_exec_eq_skipIf rfl beq_iff_eq, exists_next_of_exec_eq_skipIf rfl bne_iff_ne⟩
end

section
/-! # One register written

Families 6 and 7, like `8xy0` to `8xy3`, write one register and no flag: `State.setV` is all they do (R120, R121). -/

namespace Sys2Proof.Machine

open Sys2Proof.Claims

/-- An instruction that only writes `b` to Vx answers a state with that byte there, and writes nothing else: VF changes
only as the destination. -/
theorem exists_next_of_exec_eq_setV {i : Instr} {s : State} {x : Nibble} {b : Byte}
    (hx : exec i s = .next (s.setV x b)) :
    ∃ t, exec i s = .next t ∧ t.getV x = b ∧ Unchanged { regs := [x] } s t :=
  ⟨s.setV x b, hx, s.getV_setV_self x b, (Unchanged.refl _ s).setV (.head _) b⟩

end Sys2Proof.Machine

open Sys2Proof Sys2Proof.Machine

/-- Settles O27: the byte written is `kk` itself. -/
theorem ldVxKkLoadsImmediate : Obligations.LdVxKkLoadsImmediate :=
  fun x kk _ => ⟨decodesFrom_encode (.ldVxKk x kk), exists_next_of_exec_eq_setV rfl⟩

/-- Settles O28: the byte written is the sum of two bytes, whose value is the sum modulo 256. -/
theorem addVxKkWrapsWithoutFlag : Obligations.AddVxKkWrapsWithoutFlag := by
  refine fun x kk s => ⟨decodesFrom_encode (.addVxKk x kk), ?_⟩
  obtain ⟨t, hx, hsum, hframe⟩ := exists_next_of_exec_eq_setV (i := .addVxKk x kk) (s := s) rfl
  exact ⟨t, hx, hsum ▸ BitVec.toNat_add .., hframe⟩
end

section
/-! # Family 8: two registers, and VF as result and operand

`8xy0` to `8xy3` write one register. The other five are two shapes: add and subtract write the result and then the flag, so
VF ends as the flag; the shifts write the flag and then the result, so with x = F the result is what stays, and
`VF_ALIAS_ORDER` says of which operand (R140). One rule for each shape gives its instructions, and the table of R140 is
those statements read at x = F and at y = F. -/

namespace Sys2Proof.Machine

open Sys2Proof.Claims

/-! ### Flags and byte arithmetic as numbers -/

theorem flagByte_decide (p : Prop) [Decidable p] : flagByte (decide p) = if p then 1 else 0 := by
  simp only [flagByte, decide_eq_true_eq]

theorem toNat_flagByte_getLsbD (b : Byte) (k : Nat) : (flagByte (b.getLsbD k)).toNat = b.toNat / 2 ^ k % 2 := by
  rw [← Nat.toNat_testBit, BitVec.testBit_toNat]
  cases b.getLsbD k <;> rfl

theorem toNat_lowBitFlag (b : Byte) : (lowBitFlag b).toNat = b.toNat % 2 :=
  (toNat_flagByte_getLsbD b 0).trans (by rw [Nat.pow_zero, Nat.div_one])

theorem toNat_highBitFlag (b : Byte) : (highBitFlag b).toNat = b.toNat / 128 := by
  have hb := b.isLt
  have hflag : (highBitFlag b).toNat = b.toNat / 2 ^ 7 % 2 := toNat_flagByte_getLsbD b 7
  omega

theorem toNat_byte_sub (p q : Byte) : (p - q).toNat = (p.toNat + 256 - q.toNat) % 256 := by
  have hq := q.isLt
  rw [BitVec.toNat_sub]
  omega

theorem toNat_shiftRight_one (b : Byte) : (b >>> 1).toNat = b.toNat / 2 := by
  rw [BitVec.toNat_ushiftRight, Nat.shiftRight_one]

theorem toNat_shiftLeft_one (b : Byte) : (b <<< 1).toNat = b.toNat * 2 % 256 := by
  rw [BitVec.toNat_shiftLeft, Nat.shiftLeft_eq, Nat.pow_one]

/-- Nothing of a flag is left when it is shifted right. -/
theorem flagByte_shiftRight_one (c : Bool) : flagByte c >>> 1 = 0 := by
  cases c <;> rfl

theorem highBitFlag_shiftLeft_one (b : Byte) : highBitFlag b <<< 1 = if 128 ≤ b.toNat then 2 else 0 := by
  have hbit : b.getLsbD 7 = decide (128 ≤ b.toNat) := b.msb_eq_getLsbD_last.symm.trans b.msb_eq_decide
  rw [highBitFlag, hbit, flagByte_decide]
  split <;> rfl

/-! ### The two shapes of a flag-writing instruction -/

/-- Result first, flag last (R9, R140): VF ends as the flag, and only the result of x = F is lost. -/
theorem exists_next_of_exec_eq_resultThenFlag {i : Instr} {s : State} {x : Nibble} {result : Byte} {n : Nat}
    {p : Prop} [Decidable p] (hx : exec i s = .next (s.resultThenFlag x result (flagByte (decide p))))
    (hresult : result.toNat = n) :
    ∃ t, exec i s = .next t ∧ (x ≠ 0xF → (t.getV x).toNat = n) ∧ t.getV 0xF = (if p then 1 else 0) ∧
      Unchanged { regs := [x, 0xF] } s t := by
  have hframe := (Unchanged.refl { regs := [x, 0xF] } s).resultThenFlag (.head _) (.tail _ (.head _)) result
  refine ⟨_, hx, fun hne => ?_, ?_, hframe _⟩
  · rw [State.resultThenFlag, State.getV_setVF, if_neg hne, State.getV_setV_self, hresult]
  · rw [State.resultThenFlag, State.getV_setVF, if_pos rfl, flagByte_decide]

/-- For another register than VF the flag does not touch the operand: both values of `VF_ALIAS_ORDER` do the same. -/
theorem State.flagThenShift_of_ne (s : State) {x : Nibble} (hx : x ≠ 0xF) (flag shift : Byte → Byte) :
    s.flagThenShift x flag shift = (s.setVF (flag (s.getV x))).setV x (shift (s.getV x)) := by
  have hoperand : (s.setVF (flag (s.getV x))).getV x = s.getV x := s.getV_setV_of_ne _ hx
  unfold State.flagThenShift
  cases s.params.aliasOrder <;> simp only [hoperand]

/-- Flag first, shift last (R136, R138): for x = F the shift is what VF ends as, of the flag under `listed` and of the old VF
under `sampled`. -/
theorem exists_next_of_exec_eq_flagThenShift {i : Instr} {s : State} {x : Nibble} {flag shift : Byte → Byte}
    (hx : exec i s = .next (s.flagThenShift x flag shift)) :
    ∃ t, exec i s = .next t ∧
      (x ≠ 0xF → t.getV x = shift (s.getV x) ∧ t.getV 0xF = flag (s.getV x)) ∧
      (x = 0xF → s.params.aliasOrder = .listed → t.getV 0xF = shift (flag (s.getV 0xF))) ∧
      (x = 0xF → s.params.aliasOrder = .sampled → t.getV 0xF = shift (s.getV 0xF)) ∧
      Unchanged { regs := [x, 0xF] } s t := by
  have hframe := (Unchanged.refl { regs := [x, 0xF] } s).flagThenShift (.head _) (.tail _ (.head _)) flag shift
  refine ⟨_, hx, fun hne => ?_, fun hF ho => ?_, fun hF ho => ?_, hframe⟩
  · rw [State.flagThenShift_of_ne s hne]
    exact ⟨State.getV_setV_self .., (State.getV_setV_of_ne _ _ hne.symm).trans (State.getV_setV_self ..)⟩
  · simp [State.flagThenShift, State.getV_setVF, hF, ho]
  · simp [State.flagThenShift, hF, ho]

end Sys2Proof.Machine

open Sys2Proof Sys2Proof.Machine

/-- Settles O29: the byte written is Vy itself. -/
theorem ldVxVyCopiesRegister : Obligations.LdVxVyCopiesRegister :=
  fun x y _ => ⟨decodesFrom_encode (.ldVxVy x y), exists_next_of_exec_eq_setV rfl⟩

/-- Settles O30: one byte is written, and its bits are those of the operation. -/
theorem logicWorksBitwiseWithoutFlag : Obligations.LogicWorksBitwiseWithoutFlag :=
  fun x y _ => ⟨decodesFrom_encode (.orVxVy x y), decodesFrom_encode (.andVxVy x y), decodesFrom_encode (.xorVxVy x y),
    (exists_next_of_exec_eq_setV rfl).imp fun _ ⟨hx, hor, hframe⟩ => ⟨hx, fun _ => hor ▸ BitVec.getLsbD_or, hframe⟩,
    (exists_next_of_exec_eq_setV rfl).imp fun _ ⟨hx, hand, hframe⟩ => ⟨hx, fun _ => hand ▸ BitVec.getLsbD_and, hframe⟩,
    (exists_next_of_exec_eq_setV rfl).imp fun _ ⟨hx, hxor, hframe⟩ => ⟨hx, fun _ => hxor ▸ BitVec.getLsbD_xor, hframe⟩⟩

/-- Settles O31: the sum, then the carry. -/
theorem addVxVySetsCarry : Obligations.AddVxVySetsCarry :=
  fun x y _ => ⟨decodesFrom_encode (.addVxVy x y),
    exists_next_of_exec_eq_resultThenFlag rfl (BitVec.toNat_add ..)⟩

/-- Settles O32: the difference, then the strict comparison; `8xy7` is `8xy5` with the operands exchanged. -/
theorem subtractsSetStrictComparison : Obligations.SubtractsSetStrictComparison :=
  fun x y _ => ⟨decodesFrom_encode (.subVxVy x y), decodesFrom_encode (.subnVxVy x y),
    exists_next_of_exec_eq_resultThenFlag rfl (toNat_byte_sub ..),
    exists_next_of_exec_eq_resultThenFlag rfl (toNat_byte_sub ..)⟩

/-- Settles O33: bit 0, then the shift, which leaves 0 of a flag. -/
theorem shrShiftsRightIntoVF : Obligations.ShrShiftsRightIntoVF := by
  refine fun x y s => ⟨decodesFrom_encode (.shrVx x y), fun _ => rfl, ?_⟩
  obtain ⟨t, hx, hne, hlisted, hsampled, hframe⟩ :=
    exists_next_of_exec_eq_flagThenShift (i := .shrVx x y) (s := s) rfl
  exact ⟨t, hx, fun h => have ⟨hshift, hflag⟩ := hne h; ⟨hshift ▸ toNat_shiftRight_one _, hflag ▸ toNat_lowBitFlag _⟩,
    fun hF ho => (hlisted hF ho).trans (flagByte_shiftRight_one _),
    fun hF ho => hsampled hF ho ▸ toNat_shiftRight_one _, hframe⟩

/-- Settles O34: bit 7, then the shift, which doubles the flag under `listed`. -/
theorem shlShiftsLeftIntoVF : Obligations.ShlShiftsLeftIntoVF := by
  refine fun x y s => ⟨decodesFrom_encode (.shlVx x y), fun _ => rfl, ?_⟩
  obtain ⟨t, hx, hne, hlisted, hsampled, hframe⟩ :=
    exists_next_of_exec_eq_flagThenShift (i := .shlVx x y) (s := s) rfl
  exact ⟨t, hx, fun h => have ⟨hshift, hflag⟩ := hne h; ⟨hshift ▸ toNat_shiftLeft_one _, hflag ▸ toNat_highBitFlag _⟩,
    fun hF ho => (hlisted hF ho).trans (highBitFlag_shiftLeft_one _),
    fun hF ho => hsampled hF ho ▸ toNat_shiftLeft_one _, hframe⟩

/-- Settles O59: the rows are the statements of the family with VF as destination (x = F), as source (y = F), or as both. -/
theorem vfAliasTableHolds : Obligations.VFAliasTableHolds := by
  intro x y s hx _ f
  have hadd x y := have ⟨_, hadd⟩ := addVxVySetsCarry x y s; hadd
  have hsub x y := have ⟨_, _, hsub, _⟩ := subtractsSetStrictComparison x y s; hsub
  have hsubn x y := have ⟨_, _, _, hsubn⟩ := subtractsSetStrictComparison x y s; hsubn
  refine ⟨(hadd x 0xF).imp fun _ ⟨ht, hsum, hflag, _⟩ => ⟨ht, hsum hx, hflag⟩,
    (hadd 0xF y).imp fun _ ⟨ht, _, hflag, _⟩ => ⟨ht, hflag⟩,
    (hadd 0xF 0xF).imp fun _ ⟨ht, _, hflag, _⟩ => ⟨ht, two_mul f ▸ hflag⟩,
    (hsub x 0xF).imp fun _ ⟨ht, hdiff, hflag, _⟩ => ⟨ht, hdiff hx, hflag⟩,
    (hsub 0xF y).imp fun _ ⟨ht, _, hflag, _⟩ => ⟨ht, hflag⟩,
    (hsub 0xF 0xF).imp fun _ ⟨ht, _, hflag, _⟩ => ⟨ht, hflag.trans (if_neg (lt_irrefl f))⟩,
    (hsubn x 0xF).imp fun _ ⟨ht, hdiff, hflag, _⟩ => ⟨ht, hdiff hx, hflag⟩,
    (hsubn 0xF y).imp fun _ ⟨ht, _, hflag, _⟩ => ⟨ht, hflag⟩,
    (hsubn 0xF 0xF).imp fun _ ⟨ht, _, hflag, _⟩ => ⟨ht, hflag.trans (if_neg (lt_irrefl f))⟩,
    ?shr, ?shl, ⟨_, rfl, State.getV_setV_self ..⟩,
    ⟨_, rfl, (State.getV_setV_self ..).trans BitVec.or_self⟩,
    ⟨_, rfl, (State.getV_setV_self ..).trans BitVec.and_self⟩,
    ⟨_, rfl, (State.getV_setV_self ..).trans BitVec.xor_self⟩⟩
  case shr => -- under `listed` nothing of the flag is left
    obtain ⟨-, -, t, ht, -, hlisted, hsampled, -⟩ := shrShiftsRightIntoVF 0xF y s
    refine ⟨t, ht, ?_⟩
    cases ho : s.params.aliasOrder with
    | listed => exact congrArg BitVec.toNat (hlisted rfl ho)
    | sampled => exact hsampled rfl ho
  case shl => -- under `listed` the flag is doubled
    obtain ⟨-, -, t, ht, -, hlisted, hsampled, -⟩ := shlShiftsLeftIntoVF 0xF y s
    refine ⟨t, ht, ?_⟩
    cases ho : s.params.aliasOrder with
    | listed => exact (congrArg BitVec.toNat (hlisted rfl ho)).trans (apply_ite ..)
    | sampled => exact hsampled rfl ho
end

section
/-! # Families A, B and C: the address register, the indexed jump and the random byte

One rule says what `Bnnn` adds; the rules about a draw (R245) say which byte it answers and what it leaves of the source. -/

namespace Sys2Proof.Machine

/-- A 12-bit address and a byte add up below 2^16, so nothing of the sum is lost (R151). -/
theorem toNat_addrOf_add_wide (nnn : Addr12) (b : Byte) : (addrOf nnn + wide b).toNat = nnn.toNat + b.toNat := by
  have hnnn := nnn.isLt
  have hb := b.isLt
  rw [BitVec.toNat_add, toNat_addrOf, toNat_wide, Nat.mod_eq_of_lt (by omega)]

namespace State

variable {s : State}

@[simp] theorem drawn_draws : s.drawn.draws = s.draws + 1 := rfl

theorem randByte_of_cons {b : Byte} {bs : List Byte} (h : s.rand = b :: bs) : s.randByte = b := by
  rw [randByte, h, List.headD_cons]

theorem drawn_rand_of_cons {b : Byte} {bs : List Byte} (h : s.rand = b :: bs) : s.drawn.rand = bs := by
  rw [drawn, setRandom_rand, h, List.tail_cons]

theorem randByte_of_nil (h : s.rand = []) : s.randByte = Config.randomByte s.draws := by
  rw [randByte, h, List.headD_nil]

theorem drawn_rand_of_nil (h : s.rand = []) : s.drawn.rand = [] := by
  rw [drawn, setRandom_rand, h, List.tail_nil]

end State

end Sys2Proof.Machine

open Sys2Proof Sys2Proof.Machine

/-- Settles O23: the one update is of pc, and the 16-bit sum does not wrap. -/
theorem jpV0AddsV0 : Obligations.JpV0AddsV0 :=
  fun nnn s => ⟨decodesFrom_encode (.jpV0 nnn), s.setPc (addrOf nnn + wide (s.getV 0)), rfl,
    toNat_addrOf_add_wide nnn (s.getV 0), instructionsWriteOnlyTheirColumns (.jpV0 nnn) s _ rfl⟩

/-- Settles O35: the one update is of I, and a zero-extended address keeps its value. -/
theorem ldINnnLoadsAddress : Obligations.LdINnnLoadsAddress :=
  fun nnn s => ⟨decodesFrom_encode (.ldINnn nnn), s.setI (addrOf nnn), rfl, toNat_addrOf nnn,
    instructionsWriteOnlyTheirColumns (.ldINnn nnn) s _ rfl⟩

/-- Settles O36: the byte is the draw's, ready or free, and writing it to Vx leaves the source as the draw left it. -/
theorem rndMasksOneFreshByte : Obligations.RndMasksOneFreshByte :=
  fun x kk s => ⟨decodesFrom_encode (.rnd x kk), s.randByte, s.drawn.setV x (s.randByte &&& kk), rfl,
    State.getV_setV_self ..,
    fun _ _ hready => ⟨State.randByte_of_cons hready, State.drawn_rand_of_cons hready⟩,
    fun hnone => ⟨State.randByte_of_nil hnone, State.drawn_rand_of_nil hnone⟩,
    State.drawn_draws, instructionsWriteOnlyTheirColumns (.rnd x kk) s _ rfl⟩
end

section
/-! # Family D: the display and the sprite

Drawing is a chain of single bits, each of which toggles one pixel or none. `Toggles` says what drawing over a set of pixels
does to the display and to the collision flag; two draws over disjoint sets are one draw over their union (`Toggles.trans`).
The bits of a row are less than 64 columns apart and the rows less than 32 rows, so even with the wrap of R164 no two bits of
a sprite meet in a pixel, and the whole sprite is one draw over the pixels its 1 bits lie on. -/

namespace Sys2Proof.Machine

open Sys2Proof.Claims

namespace Display

/-! ### The primitives, on the grid and off it -/

theorem isSet_of_mem (d : Display) (px : Fin 64) (py : Fin 32) : d.isSet px.val py.val = .ok (d.isOn px py) :=
  dif_pos ⟨px.isLt, py.isLt⟩

theorem setPixel_of_mem (d : Display) (px : Fin 64) (py : Fin 32) :
    d.setPixel px.val py.val = .ok (d.put px py true) :=
  dif_pos ⟨px.isLt, py.isLt⟩

theorem isSet_of_off (d : Display) {x y : Nat} (h : 64 ≤ x ∨ 32 ≤ y) : d.isSet x y = .error (.pixelRange x y) :=
  dif_neg (by omega)

theorem setPixel_of_off (d : Display) {x y : Nat} (h : 64 ≤ x ∨ 32 ≤ y) :
    d.setPixel x y = .error (.pixelRange x y) :=
  dif_neg (by omega)

/-! ### Drawing over a set of pixels -/

/-- From `a` to `b`, each a display with its collision flag so far, exactly the pixels of `P` are toggled, and a collision is
recorded exactly if one of them was on (R165). -/
structure Toggles (P : Fin 64 → Fin 32 → Prop) (a b : Display × Bool) : Prop where
  toggled : ∀ px py, P px py → b.1.isOn px py = !a.1.isOn px py
  kept : ∀ px py, ¬ P px py → b.1.isOn px py = a.1.isOn px py
  collision : b.2 = true ↔ a.2 = true ∨ ∃ px py, P px py ∧ a.1.isOn px py = true

namespace Toggles

variable {P Q R : Fin 64 → Fin 32 → Prop} {a b c : Display × Bool}

theorem refl_of_empty (hP : ∀ px py, ¬ P px py) (a : Display × Bool) : Toggles P a a where
  toggled px py h := absurd h (hP px py)
  kept _ _ _ := rfl
  collision := by simp [hP]

/-- Two draws over disjoint sets are one draw over their union: the second finds its pixels as they were before the first. -/
theorem trans (hab : Toggles P a b) (hbc : Toggles Q b c) (hdisj : ∀ px py, P px py → ¬ Q px py)
    (hR : ∀ px py, R px py ↔ P px py ∨ Q px py) : Toggles R a c where
  toggled px py h := by
    obtain hP | hQ := (hR px py).mp h
    · rw [hbc.kept px py (hdisj px py hP), hab.toggled px py hP]
    · rw [hbc.toggled px py hQ, hab.kept px py fun hP => hdisj px py hP hQ]
  kept px py h := by
    obtain ⟨hP, hQ⟩ := not_or.mp (mt (hR px py).mpr h)
    rw [hbc.kept px py hQ, hab.kept px py hP]
  collision := by
    have hQ px py : Q px py ∧ b.1.isOn px py = true ↔ Q px py ∧ a.1.isOn px py = true :=
      and_congr_right fun hQ => by rw [hab.kept px py fun hP => hdisj px py hP hQ]
    simp only [hbc.collision, hab.collision, hQ, hR, or_and_right, exists_or, or_assoc]

/-- A pixel that has come on is one that was toggled. -/
theorem on_and_off_before_iff (h : Toggles P a b) (px : Fin 64) (py : Fin 32) :
    a.1.isOn px py = false ∧ b.1.isOn px py = true ↔ P px py ∧ b.1.isOn px py = true := by
  by_cases hP : P px py
  · simp [hP, h.toggled px py hP]
  · simp [hP, h.kept px py hP]

/-- Toggling the same pixels again brings the display back. -/
theorem restores {f : Bool} (hab : Toggles P a b) (hbc : Toggles P (b.1, f) c) : c.1 = a.1 :=
  ext_isOn fun px py => by
    by_cases hP : P px py
    · rw [hbc.toggled px py hP, hab.toggled px py hP, Bool.not_not]
    · rw [hbc.kept px py hP, hab.kept px py hP]

/-- Toggling no pixel changes nothing and collides with nothing. -/
theorem eq_of_empty (h : Toggles P a b) (hP : ∀ px py, ¬ P px py) : b = a :=
  Prod.ext (ext_isOn fun px py => h.kept px py (hP px py)) (Bool.eq_iff_iff.mpr (by simp [h.collision, hP]))

end Toggles

/-! ### The bits of a sprite -/

/-- The pixel of a sprite bit, if the bit is 1. -/
theorem toggles_drawBit (x y : Nat) (bit : Bool) (dc : Display × Bool) :
    Toggles (fun px py => bit = true ∧ px = wrapX x ∧ py = wrapY y) dc (drawBit x y bit dc) where
  toggled px py h := (isOn_drawBit ..).trans (if_pos h)
  kept px py h := (isOn_drawBit ..).trans (if_neg h)
  collision := by simp [collision_drawBit]

/-- One of the first `k` bits of a sprite row is 1 and its pixel, wrapped, is (px, py) (R164, R167). -/
def RowBitAt (row : Byte) (x y k : Nat) (px : Fin 64) (py : Fin 32) : Prop :=
  ∃ c < k, row.getLsbD (7 - c) = true ∧ px = wrapX (x + c) ∧ py = wrapY y

theorem rowBitAt_succ (row : Byte) (x y k : Nat) (px : Fin 64) (py : Fin 32) :
    RowBitAt row x y (k + 1) px py ↔
      RowBitAt row x y k px py ∨ (row.getLsbD (7 - k) = true ∧ px = wrapX (x + k) ∧ py = wrapY y) := by
  simp only [RowBitAt, Nat.lt_succ_iff_lt_or_eq, or_and_right, exists_or, exists_eq_left]

/-- Two bits of a row less than 64 columns apart do not meet in a pixel. -/
theorem RowBitAt.ne_wrapX {row : Byte} {x y k : Nat} {px : Fin 64} {py : Fin 32} (h : RowBitAt row x y k px py)
    (hk : k < 64) : px ≠ wrapX (x + k) := by
  obtain ⟨c, hc, -, rfl, -⟩ := h
  simp only [wrapX, ne_eq, Fin.mk.injEq]
  omega

theorem toggles_foldl_drawBit (x y : Nat) (row : Byte) (dc : Display × Bool) {k : Nat} (hk : k ≤ 64) :
    Toggles (RowBitAt row x y k) dc
      ((List.range k).foldl (fun acc c => drawBit (x + c) y (row.getLsbD (7 - c)) acc) dc) := by
  induction k with
  | zero => exact .refl_of_empty (fun _ _ ⟨_, hc, _⟩ => absurd hc (Nat.not_lt_zero _)) dc
  | succ k ih =>
    rw [List.range_succ, List.foldl_append]
    exact (ih (by omega)).trans (toggles_drawBit ..) (fun _ _ h ⟨_, hx, _⟩ => h.ne_wrapX hk hx) (rowBitAt_succ row x y k)

theorem toggles_drawRow (x y : Nat) (row : Byte) (dc : Display × Bool) :
    Toggles (RowBitAt row x y 8) dc (drawRow x y row dc) :=
  toggles_foldl_drawBit x y row dc (by decide)

theorem not_spriteBitAt_nil (x y : Nat) (px : Fin 64) (py : Fin 32) : ¬ SpriteBitAt [] x y px py := by
  simp [SpriteBitAt]

theorem spriteBitAt_cons (row : Byte) (rows : List Byte) (x y : Nat) (px : Fin 64) (py : Fin 32) :
    SpriteBitAt (row :: rows) x y px py ↔ RowBitAt row x y 8 px py ∨ SpriteBitAt rows x (y + 1) px py := by
  constructor
  · rintro ⟨r, c, row', hr, hc, hbit, hx, hy⟩
    cases r with
    | zero =>
      obtain rfl := Option.some.inj hr
      exact .inl ⟨c, hc, hbit, Fin.ext hx, Fin.ext hy⟩
    | succ r => exact .inr ⟨r, c, row', hr, hc, hbit, hx, by omega⟩
  · rintro (⟨c, hc, hbit, rfl, rfl⟩ | ⟨r, c, row', hr, hc, hbit, hx, hy⟩)
    · exact ⟨0, c, row, rfl, hc, hbit, rfl, rfl⟩
    · exact ⟨r + 1, c, row', hr, hc, hbit, hx, by omega⟩

/-- A row and the fewer than 32 rows below it do not meet in a pixel. -/
theorem RowBitAt.not_spriteBitAt {row : Byte} {rows : List Byte} {x y k : Nat} {px : Fin 64} {py : Fin 32}
    (h : RowBitAt row x y k px py) (hlen : rows.length < 32) : ¬ SpriteBitAt rows x (y + 1) px py := by
  rintro ⟨r, _, _, hr, -, -, -, hy⟩
  obtain ⟨-, -, -, -, rfl⟩ := h
  obtain ⟨hr, -⟩ := List.getElem?_eq_some_iff.mp hr
  simp only [wrapY] at hy
  omega

theorem toggles_drawRows (x : Nat) {rows : List Byte} (hlen : rows.length ≤ 32) (y : Nat) (dc : Display × Bool) :
    Toggles (SpriteBitAt rows x y) dc (drawRows x y rows dc) := by
  induction rows generalizing y dc with
  | nil => exact .refl_of_empty (not_spriteBitAt_nil x y) dc
  | cons row rows ih =>
    exact (toggles_drawRow x y row dc).trans (ih (Nat.le_of_succ_le hlen) (y + 1) _)
      (fun _ _ h => h.not_spriteBitAt hlen) (spriteBitAt_cons row rows x y)

/-- R164, R165: a sprite of at most 15 rows toggles the pixels its 1 bits lie on, the flag being off before. -/
theorem toggles_drawSprite (d : Display) (x y : Nat) {rows : List Byte} (hlen : rows.length ≤ 15) :
    Toggles (SpriteBitAt rows x y) (d, false) (d.drawSprite x y rows) :=
  toggles_drawRows x (by omega) y (d, false)

theorem collision_drawSprite (d : Display) (x y : Nat) {rows : List Byte} (hlen : rows.length ≤ 15) :
    (d.drawSprite x y rows).2 = true ↔ ∃ px py, SpriteBitAt rows x y px py ∧ d.isOn px py = true := by
  simp [(toggles_drawSprite d x y hlen).collision]

/-- R168 (b): from (63, 31), bit 6 of the second row wraps to pixel (0, 0). -/
theorem spriteBitAt_origin {rows : List Byte} {row : Byte} (hrow : rows[1]? = some row) (hbit : row.getLsbD 6 = true) :
    SpriteBitAt rows 63 31 0 0 :=
  ⟨1, 1, row, hrow, by decide, hbit, rfl, rfl⟩

theorem not_spriteBitAt_of_blank {rows : List Byte} (hblank : ∀ row ∈ rows, row = 0) (x y : Nat) (px : Fin 64)
    (py : Fin 32) : ¬ SpriteBitAt rows x y px py := by
  rintro ⟨r, c, row, hr, -, hbit, -⟩
  obtain rfl := hblank row (List.mem_of_getElem? hr)
  simp at hbit

end Display

/-! ### `Dxyn` and the renderer's read -/

theorem exec_drw_of_dataFault_none {x y n : Nibble} {s : State} (h : s.dataFault (encode (.drw x y n)) n.toNat = none) :
    exec (.drw x y n) s = .next ((s.setDisp (s.sprite x y n).1).setVF (flagByte (s.sprite x y n).2)) :=
  checked_eq_next.mpr ⟨h, rfl⟩

/-- The outside's next event is its next move, unless a wait is pending (log 2). -/
theorem step_of_host_cons {s : State} {e : HostEvent} {es : List HostEvent} (hw : s.waiting = none)
    (hh : s.host = e :: es) : step s = hostMove e (s.setHost es) := by
  simp only [step, turn, hw, hh]

theorem renderPixel_of_isSet_ok {x y : Nat} {s : State} {b : Bool} (h : s.disp.isSet x y = .ok b) :
    renderPixel x y s = .next s := by
  simp only [renderPixel, h]

theorem renderPixel_of_isSet_error {x y : Nat} {s : State} {r : Fault} (h : s.disp.isSet x y = .error r) :
    renderPixel x y s = reportFault r s := by
  simp only [renderPixel, h]

end Sys2Proof.Machine

open Sys2Proof Sys2Proof.Machine

/-- Settles O51: the sprite is one draw over the pixels its 1 bits lie on. -/
theorem spriteComposesByXor : Obligations.SpriteComposesByXor := by
  intro d x y rows hlen
  have h := Display.toggles_drawSprite d x y hlen
  exact ⟨h.toggled, h.kept, Display.collision_drawSprite d x y hlen⟩

/-- Settles O52: both draws toggle the same pixels, and the second collides with those the first turned on. -/
theorem spriteDrawnTwiceRestores : Obligations.SpriteDrawnTwiceRestores := by
  intro d x y rows hlen
  have hfirst := Display.toggles_drawSprite d x y hlen
  have hsecond := Display.toggles_drawSprite (d.drawSprite x y rows).1 x y hlen
  refine ⟨hfirst.restores hsecond, ?_, ?_,
    fun hblank => hfirst.eq_of_empty (Display.not_spriteBitAt_of_blank hblank x y)⟩
  · rw [Display.collision_drawSprite _ x y hlen]
    exact exists_congr fun px => exists_congr fun py => (hfirst.on_and_off_before_iff px py).symm
  · rintro rfl rfl row hrow hbit
    exact hfirst.toggled 0 0 (Display.spriteBitAt_origin hrow hbit)

/-- Settles O53: the range check of R51 decides between the draw of the bytes at I and the fault. -/
theorem drwDrawsSpriteAndSetsVF : Obligations.DrwDrawsSpriteAndSetsVF := by
  refine fun x y n s => ⟨decodesFrom_encode (.drw x y n), fun hrange => ?_, fun hn hi => ?_⟩
  · have hx := exec_drw_of_dataFault_none (x := x) (y := y)
      ((s.dataFault_eq_none _ n.toNat).mpr (hrange.imp_right Nat.lt_succ_of_le))
    exact ⟨_, s.bytesAtI n.toNat, hx, s.length_bytesAtI n.toNat, s.getElem_bytesAtI n.toNat, rfl,
      State.getV_setV_self .., instructionsWriteOnlyTheirColumns (.drw x y n) s _ hx⟩
  · exact checked_eq_fault.mpr (s.dataFault_eq_some _ _ hn hi)

/-- Settles O49: on the grid each primitive reads or writes its one pixel, off it the bounds check fails. -/
theorem displayPrimitivesCheckBounds : Obligations.DisplayPrimitivesCheckBounds := by
  refine fun d x y => ⟨d.isOn_clear, ?_, fun hoff => ⟨d.isSet_of_off hoff, d.setPixel_of_off hoff⟩⟩
  rintro px py rfl rfl
  refine ⟨d.isSet_of_mem px py, d.put px py true, d.setPixel_of_mem px py, ?_, fun qx qy hne => ?_⟩
  · rw [Display.isOn_put, if_pos ⟨rfl, rfl⟩]
  · rw [Display.isOn_put, if_neg fun ⟨hx, hy⟩ => hne (Prod.ext hx hy)]

/-- Settles O50: the step is the read, which answers the same state on the grid and a reported fault off it. -/
theorem rendererReadChangesNothing : Obligations.RendererReadChangesNothing := by
  intro s x y es hw hh
  have hstep : step s = renderPixel x y (s.setHost es) := step_of_host_cons hw hh
  refine ⟨fun hx hy => ?_, fun hoff hhalt => ?_⟩ <;> rw [hstep]
  · exact renderPixel_of_isSet_ok (s.disp.isSet_of_mem ⟨x, hx⟩ ⟨y, hy⟩)
  · exact (renderPixel_of_isSet_error (s := s.setHost es) (s.disp.isSet_of_off hoff)).trans
      (reportFault_eq_fault.mpr ⟨hhalt, rfl⟩)
end


section
/-! # Family E: skips on a key's level

`Ex9E` and `ExA1` are the skip of R110 behind one check, that Vx names a key (R182). -/

namespace Sys2Proof.Machine

/-- A register that holds 0 to 15 reads the level of the key of that number (R241): no bit of its value is dropped. -/
theorem State.keyOf_eq_getElem (s : State) {b : Byte} {k : Fin 16} (hk : b.toNat = k.val) : s.keyOf b = s.keys[k] := by
  have hindex : (b.setWidth 4).toNat = k.val := by
    rw [BitVec.toNat_setWidth, hk, Nat.mod_eq_of_lt k.isLt]
  simp only [State.keyOf, State.keyDown, hindex, Fin.getElem_fin]

theorem checked_keyFault_of_lt (op : Word) {b : Byte} (t : State) (hb : b.toNat < 16) :
    checked (keyFault op b) t = .next t :=
  checked_eq_next.mpr ⟨(keyFault_eq_none op b).mpr hb, rfl⟩

theorem checked_keyFault_of_gt (op : Word) {b : Byte} (t : State) (hb : 15 < b.toNat) :
    checked (keyFault op b) t = .fault (.keyRange op b) :=
  checked_eq_fault.mpr (keyFault_eq_some op b hb)

end Sys2Proof.Machine

open Sys2Proof Sys2Proof.Machine

/-- Settles O26: below 16 the check passes and each instruction is a skip, `Ex9E` on the named key's level and `ExA1` on its
negation; above 15 the check is the fault. -/
theorem keySkipsReadTheNamedKey : Obligations.KeySkipsReadTheNamedKey := by
  refine fun x s => ⟨decodesFrom_encode (.skp x), decodesFrom_encode (.sknp x), fun k hk => ?_, fun hx =>
    ⟨checked_keyFault_of_gt _ _ hx, checked_keyFault_of_gt _ _ hx⟩⟩
  have hkey : s.keyOf (s.getV x) = s.keys[k] := s.keyOf_eq_getElem hk
  have hlt : (s.getV x).toNat < 16 := hk ▸ k.isLt
  constructor
  · exact exists_next_of_exec_eq_skipIf (checked_keyFault_of_lt _ _ hlt) (by rw [hkey])
  · have hskip := exists_next_of_exec_eq_skipIf (i := .sknp x) (p := ¬ s.keys[k] = true)
      (checked_keyFault_of_lt _ _ hlt) (by rw [hkey, Bool.not_eq_true, Bool.not_eq_true'])
    simpa only [ite_not] using hskip
end

section
/-! # Family F: timers, address arithmetic and the stores and loads at `I`

The three instructions that access memory are one range check (R51) before one update: a store of bytes at `I`, or a load of
the register block, of which `getV_foldl_loadReg` says what each register holds after it. -/

namespace Sys2Proof.Machine

open Sys2Proof.Claims

/-! ### The range check of an access to `n + 1` bytes -/

theorem checked_dataFault_of_le {s : State} {n : Nat} (op : Word) (t : State) (h : s.i.toNat + n ≤ 4095) :
    checked (s.dataFault op (n + 1)) t = .next t :=
  checked_eq_next.mpr ⟨(s.dataFault_eq_none op (n + 1)).mpr (.inr (Nat.lt_succ_of_le h)), rfl⟩

theorem checked_dataFault_of_gt {s : State} {n : Nat} (op : Word) (t : State) (h : 4095 < s.i.toNat + n) :
    checked (s.dataFault op (n + 1)) t =
      .fault (.memRangeData op s.i (max s.i.toNat 4096) (s.i.toNat + n)) :=
  checked_eq_fault.mpr (s.dataFault_eq_some op (n + 1) n.succ_pos h)

/-! ### Address arithmetic -/

theorem toNat_add_wide (a : Word) (b : Byte) : (a + wide b).toNat = (a.toNat + b.toNat) % 65536 := by
  rw [BitVec.toNat_add, toNat_wide]

/-- Five times a byte is below 2^16, so nothing of the product is lost (R195). -/
theorem toNat_wide_mul_glyphHeight (b : Byte) :
    (wide b * BitVec.ofNat 16 Config.glyphHeight).toNat = b.toNat * 5 := by
  have hb := b.isLt
  rw [BitVec.toNat_mul, toNat_wide]
  exact Nat.mod_eq_of_lt (by simp only [Config.glyphHeight, BitVec.toNat_ofNat]; omega)

/-! ### The register block -/

/-- A stored block read back at `I + y` (R197). -/
theorem readByte_storeBytes_regBlock (s : State) {x y : Nibble} (h : y.toNat ≤ x.toNat) :
    (s.storeBytes (s.dataAddr 0) (s.regBlock x)).readByte (s.dataAddr y.toNat) = s.getV y := by
  rw [s.dataAddr_eq_add y.toNat, State.readByte_storeBytes_add s _ (by rw [State.length_regBlock]; omega),
    State.getElem_regBlock, nibble_ofNat_toNat]

/-- Loads of listed registers, one after another: each listed register holds its byte of memory, which no load of a register
changes, and the others keep theirs. -/
theorem getV_foldl_loadReg (js : List Nat) (hjs : ∀ j ∈ js, j < 16) (s : State) (y : Nibble) :
    (js.foldl (fun t j => t.setV (BitVec.ofNat 4 j) (t.readByte (t.dataAddr j))) s).getV y =
      if y.toNat ∈ js then s.readByte (s.dataAddr y.toNat) else s.getV y := by
  induction js generalizing s with
  | nil => rfl
  | cons j js ih =>
    obtain ⟨hj, hjs⟩ := List.forall_mem_cons.mp hjs
    have heq : y = BitVec.ofNat 4 j ↔ y.toNat = j := by
      rw [← BitVec.toNat_inj, BitVec.toNat_ofNat, Nat.mod_eq_of_lt hj]
    rw [List.foldl_cons, ih hjs, State.readByte_setV, State.dataAddr_setV, State.getV_setV]
    by_cases hy : y.toNat = j <;> simp [heq, hy]

/-- The block after a load (R198): registers up to Vx from memory, those above Vx as they were. -/
theorem State.getV_loadRegs (s : State) (x y : Nibble) :
    (s.loadRegs x).getV y = if y.toNat ≤ x.toNat then s.readByte (s.dataAddr y.toNat) else s.getV y := by
  have hx := x.isLt
  rw [State.loadRegs, getV_foldl_loadReg _ (fun j hj => by rw [List.mem_range] at hj; omega)]
  simp only [List.mem_range, Nat.lt_succ_iff]

end Sys2Proof.Machine

open Sys2Proof Sys2Proof.Machine

/-- Settles O37: the byte written is DT. -/
theorem ldVxDtReadsDelayTimer : Obligations.LdVxDtReadsDelayTimer :=
  fun x _ => ⟨decodesFrom_encode (.ldVxDt x), exists_next_of_exec_eq_setV rfl⟩

/-- Settles O38: each instruction is one update, of DT or of ST. -/
theorem timerLoadsCopyVx : Obligations.TimerLoadsCopyVx :=
  fun x s => ⟨decodesFrom_encode (.ldDtVx x), decodesFrom_encode (.ldStVx x),
    ⟨s.setDt (s.getV x), rfl, rfl, instructionsWriteOnlyTheirColumns (.ldDtVx x) s _ rfl⟩,
    ⟨s.setSt (s.getV x), rfl, rfl, instructionsWriteOnlyTheirColumns (.ldStVx x) s _ rfl⟩⟩

/-- Settles O39: the one update is of I, by a 16-bit sum. -/
theorem addIVxWrapsWithoutFlag : Obligations.AddIVxWrapsWithoutFlag :=
  fun x s => ⟨decodesFrom_encode (.addIVx x), s.setI (s.i + wide (s.getV x)), rfl, toNat_add_wide s.i (s.getV x),
    instructionsWriteOnlyTheirColumns (.addIVx x) s _ rfl⟩

/-- Settles O40: the one update is of I, by a product that does not wrap. -/
theorem ldFVxPointsAtGlyph : Obligations.LdFVxPointsAtGlyph :=
  fun x s => ⟨decodesFrom_encode (.ldFVx x), s.setI _, rfl, toNat_wide_mul_glyphHeight (s.getV x),
    instructionsWriteOnlyTheirColumns (.ldFVx x) s _ rfl⟩

/-- Settles O41: where the range check passes, the three digits are stored at `I`. -/
theorem bcdStoresThreeDigits : Obligations.BcdStoresThreeDigits := by
  refine fun x s => ⟨decodesFrom_encode (.ldBVx x), fun hrange => ?_, checked_dataFault_of_gt _ _⟩
  have hx : exec (.ldBVx x) s = .next _ := checked_dataFault_of_le _ _ hrange
  have hdigit := toNat_readByte_storeBytes_bcdDigits s x
  refine ⟨_, hx, (hdigit _).trans ?_, (hdigit _).trans ?_, (hdigit _).trans ?_,
    instructionsWriteOnlyTheirColumns (.ldBVx x) s _ hx⟩
  all_goals simp [Claims.byteAfterBcd, State.dataAddr]

/-- Settles O42: where the range check passes, the block is stored at `I`. -/
theorem storeBlockWritesV0ToVx : Obligations.StoreBlockWritesV0ToVx := by
  refine fun x s => ⟨decodesFrom_encode (.ldMemVx x), fun hrange => ?_, checked_dataFault_of_gt _ _⟩
  have hx : exec (.ldMemVx x) s = .next _ := checked_dataFault_of_le _ _ hrange
  exact ⟨_, hx, fun _ => readByte_storeBytes_regBlock s, instructionsWriteOnlyTheirColumns (.ldMemVx x) s _ hx⟩

/-- Settles O43: where the range check passes, the block is loaded from `I`. -/
theorem loadBlockReadsV0ToVx : Obligations.LoadBlockReadsV0ToVx := by
  refine fun x s => ⟨decodesFrom_encode (.ldVxMem x), fun hrange => ?_, checked_dataFault_of_gt _ _⟩
  have hx : exec (.ldVxMem x) s = .next _ := checked_dataFault_of_le _ _ hrange
  exact ⟨_, hx, s.getV_loadRegs x, instructionsWriteOnlyTheirColumns (.ldVxMem x) s _ hx⟩
end

section
/-! # The key wait and the outside's other moves

`levelsAfter` is what a run of events leaves of the key levels, and R241's "latest event" read key by key
(`getElem_levelsAfter`). A wait (R191) and a delivery of key events between cycles (R243) both leave exactly these levels;
they differ in what else happens. -/

namespace Sys2Proof.Machine

open Sys2Proof.Claims

/-! ### Key levels after events -/

/-- The levels after one event: a key-down or key-up sets its key's level, any other event none (R241). -/
def levelsAfterEvent (ks : Vector Bool 16) : HostEvent → Vector Bool 16
  | .keyDown k => keyLevel ks k true
  | .keyUp k => keyLevel ks k false
  | _ => ks

/-- The levels after events, the oldest first. -/
def levelsAfter (ks : Vector Bool 16) (es : List HostEvent) : Vector Bool 16 := es.foldl levelsAfterEvent ks

@[simp] theorem levelsAfter_nil (ks : Vector Bool 16) : levelsAfter ks [] = ks := rfl

@[simp] theorem levelsAfter_cons (ks : Vector Bool 16) (e : HostEvent) (es : List HostEvent) :
    levelsAfter ks (e :: es) = levelsAfter (levelsAfterEvent ks e) es := rfl

theorem levelsAfter_append (ks : Vector Bool 16) (es es' : List HostEvent) :
    levelsAfter ks (es ++ es') = levelsAfter (levelsAfter ks es) es' := List.foldl_append

/-- Of one event, the latest level is what the event sets. -/
theorem getElem_levelsAfterEvent (ks : Vector Bool 16) (e : HostEvent) (j : Nibble) :
    (levelsAfterEvent ks e)[j.toNat]'j.isLt = latestLevel j (ks[j.toNat]'j.isLt) [e] := by
  cases e with
  | keyDown k | keyUp k => simp only [levelsAfterEvent, keyLevel_getElem, latestLevel, eq_comm]
  | _ => rfl

theorem latestLevel_cons (j : Nibble) (before : Bool) (e : HostEvent) (es : List HostEvent) :
    latestLevel j before (e :: es) = latestLevel j (latestLevel j before [e]) es := by
  cases e <;> rfl

/-- R241: a key's level after events is what the latest event of that key says. -/
theorem getElem_levelsAfter (ks : Vector Bool 16) (es : List HostEvent) (j : Nibble) :
    (levelsAfter ks es)[j.toNat]'j.isLt = latestLevel j (ks[j.toNat]'j.isLt) es := by
  induction es generalizing ks with
  | nil => rfl
  | cons e es ih => rw [levelsAfter_cons, ih, getElem_levelsAfterEvent, ← latestLevel_cons]

/-! ### The wait -/

theorem noKeyDown_cons {e : HostEvent} {es : List HostEvent} (h : NoKeyDown (e :: es)) :
    (∀ k, e ≠ .keyDown k) ∧ NoKeyDown es :=
  ⟨fun k he => h k (he ▸ .head _), fun k hk => h k (.tail _ hk)⟩

/-- An event that is no key-down ends no wait; it only sets levels (R191). -/
theorem awaitKey_cons {e : HostEvent} (he : ∀ k, e ≠ .keyDown k) (es : List HostEvent) (ks : Vector Bool 16) :
    awaitKey (e :: es) ks = awaitKey es (levelsAfterEvent ks e) := by
  cases e with
  | keyDown k => exact absurd rfl (he k)
  | _ => rfl

/-- Without a key-down ahead, a wait goes on to what stands behind. -/
theorem awaitKey_append {pre : List HostEvent} (h : NoKeyDown pre) (es : List HostEvent) (ks : Vector Bool 16) :
    awaitKey (pre ++ es) ks = awaitKey es (levelsAfter ks pre) := by
  induction pre generalizing ks with
  | nil => rfl
  | cons e pre ih =>
    obtain ⟨he, hpre⟩ := noKeyDown_cons h
    rw [List.cons_append, awaitKey_cons he, ih hpre, levelsAfter_cons]

/-- The state after a wait that the key-down of `k` ended, `used` being the events up to it and `post` those after it. -/
def State.waitEnded (s : State) (x k : Nibble) (used post : List HostEvent) : State :=
  (((s.setV x (k.setWidth 8)).setKeys (levelsAfter s.keys used)).setHost post).setWaiting none

/-- The state that waits for Vx with the outside's events used up. -/
def State.stillWaiting (s : State) (x : Nibble) : State :=
  ((s.setKeys (levelsAfter s.keys s.host)).setHost []).setWaiting (some x)

theorem waitForKey_of_keyDown {s : State} {k : Nibble} {pre post : List HostEvent} (x : Nibble)
    (hh : s.host = pre ++ .keyDown k :: post) (hpre : NoKeyDown pre) :
    waitForKey x s = s.waitEnded x k (pre ++ [.keyDown k]) post := by
  have hawait : awaitKey s.host s.keys = (some k, levelsAfter s.keys (pre ++ [.keyDown k]), post) := by
    rw [hh, awaitKey_append hpre, levelsAfter_append]
    rfl
  simp only [waitForKey, hawait, State.waitEnded]

theorem waitForKey_of_noKeyDown {s : State} (x : Nibble) (hh : NoKeyDown s.host) :
    waitForKey x s = s.stillWaiting x := by
  have hawait : awaitKey s.host s.keys = (none, levelsAfter s.keys s.host, []) := by
    have h := awaitKey_append hh [] s.keys
    rwa [List.append_nil] at h
  simp only [waitForKey, hawait, State.stillWaiting]

theorem exec_ldVxK (x : Nibble) (s : State) : exec (.ldVxK x) s = .next (waitForKey x s) := rfl

/-- A pending wait is what a step does (R253). -/
theorem step_of_waiting {s : State} {x : Nibble} (h : s.waiting = some x) : step s = .next (waitForKey x s) := by
  simp only [step, turn, h]

theorem toNat_getV_waitEnded (s : State) (x k : Nibble) (used post : List HostEvent) :
    ((s.waitEnded x k used post).getV x).toNat = k.toNat := by
  have hk := k.isLt
  simp only [State.waitEnded, State.getV_setWaiting, State.getV_setHost, State.getV_setKeys, State.getV_setV_self,
    BitVec.toNat_setWidth]
  omega

theorem unchanged_waitEnded (s : State) (x k : Nibble) (used post : List HostEvent) :
    Unchanged { regs := [x], outside := true } s (s.waitEnded x k used post) :=
  ((((Unchanged.refl _ s).setV (.head _) _).setKeys rfl _).setHost rfl _).setWaiting rfl _

theorem unchanged_stillWaiting (s : State) (x : Nibble) : Unchanged { outside := true } s (s.stillWaiting x) :=
  (((Unchanged.refl _ s).setKeys rfl _).setHost rfl _).setWaiting rfl _

/-- A wait with nothing left to come is a fixed point (R253). -/
theorem stillWaiting_eq_self {s : State} {x : Nibble} (hw : s.waiting = some x) (hh : s.host = []) :
    s.stillWaiting x = s := by
  cases s
  cases hw
  cases hh
  rfl

/-! ### Key events and ticks between cycles -/

/-- A key event between cycles only sets levels (R243). -/
theorem hostMove_of_isKeyEvent {e : HostEvent} (he : isKeyEvent e = true) (s : State) :
    hostMove e s = .next (s.setKeys (levelsAfterEvent s.keys e)) := by
  cases e with
  | keyDown | keyUp | unknownKey => rfl
  | cycle | tick | pixel => cases he

/-- As many steps as there are key events deliver them and do nothing else. -/
theorem run_keyEvents {events rest : List HostEvent} {s : State} (hw : s.waiting = none)
    (hh : s.host = events ++ rest) (hkey : ∀ e ∈ events, isKeyEvent e = true) :
    core.run events.length s = .next ((s.setKeys (levelsAfter s.keys events)).setHost rest) := by
  induction events generalizing s with
  | nil => rw [← List.nil_append rest, ← hh]; rfl
  | cons e events ih =>
    obtain ⟨he, hkey⟩ := List.forall_mem_cons.mp hkey
    have hstep : core.step s = .next ((s.setHost (events ++ rest)).setKeys (levelsAfterEvent s.keys e)) :=
      (step_of_host_cons hw hh).trans (hostMove_of_isKeyEvent he _)
    exact (run_succ_of_step hstep events.length).trans (ih hw rfl hkey)

/-- R231: one less, and 0 stays 0. -/
theorem toNat_countDown (b : Byte) : (countDown b).toNat = b.toNat - 1 := by
  unfold countDown
  split_ifs with h
  · exact BitVec.toNat_sub_of_le (BitVec.le_def.mpr h)
  · omega

end Sys2Proof.Machine

open Sys2Proof Sys2Proof.Machine

/-- Settles O45: the instruction and the step of a waiting engine are the same wait, which the first key-down ends. -/
theorem keyDownEndsTheWait : Obligations.KeyDownEndsTheWait := by
  refine fun x k s pre post => ⟨decodesFrom_encode (.ldVxK x), fun hh hpre => ?_⟩
  have hwait := waitForKey_of_keyDown x hh hpre
  have hlevels := getElem_levelsAfter s.keys (pre ++ [.keyDown k])
  have hV := toNat_getV_waitEnded s x k (pre ++ [.keyDown k]) post
  have hframe := unchanged_waitEnded s x k (pre ++ [.keyDown k]) post
  exact ⟨⟨_, hwait ▸ exec_ldVxK x s, hV, rfl, rfl, hlevels, hframe⟩,
    fun hw => ⟨_, hwait ▸ step_of_waiting hw, hV, rfl, rfl, hlevels, hframe⟩⟩

/-- Settles O46: the instruction and the step of a waiting engine are the same wait, which goes on. -/
theorem waitWithoutKeyFreezesTheMachine : Obligations.WaitWithoutKeyFreezesTheMachine := by
  intro x s hh
  have hwait := waitForKey_of_noKeyDown x hh
  have hlevels : ∀ j, (s.stillWaiting x).keyDown j = Claims.latestLevel j (s.keyDown j) s.host :=
    getElem_levelsAfter s.keys s.host
  have hframe := unchanged_stillWaiting s x
  exact ⟨⟨_, hwait ▸ exec_ldVxK x s, rfl, rfl, hlevels, hframe⟩,
    fun hw => ⟨_, hwait ▸ step_of_waiting hw, rfl, rfl, hlevels, hframe, stillWaiting_eq_self hw⟩⟩

/-- Settles O48, by induction on the events: each step delivers one. -/
theorem keyLevelIsTheLatestEvent : Obligations.KeyLevelIsTheLatestEvent :=
  fun events _ s hw hh hkey => ⟨_, run_keyEvents hw hh hkey, getElem_levelsAfter s.keys events, rfl, hw,
    ((Unchanged.refl _ s).setKeys rfl _).setHost rfl _⟩

/-- Settles O47: the outside's move is the tick, which counts each timer down. -/
theorem tickCountsBothTimersDown : Obligations.TickCountsBothTimersDown :=
  fun s es hw hh => ⟨tick (s.setHost es), step_of_host_cons hw hh, toNat_countDown s.dt, toNat_countDown s.st, rfl, rfl,
    hw, (((Unchanged.refl _ s).setHost rfl es).setDt rfl _).setSt rfl _⟩
end

section
/-! # Faults: which instruction takes one, and what state it leaves

`exec_eq_fault_iff` says that an instruction faults exactly as `Claims.faultOf` lists. That list reads registers, `I`, `pc`
and the stack count, none of which is the driver's choice, so a driver that goes on meets the same fault
(`cycle_carryingOn_of_fault`). -/

namespace Sys2Proof.Machine

open Sys2Proof.Claims

/-! ### The faults of the instructions -/

/-- The answer is the fault `f`, or a next state if there is none. -/
def FaultsExactlyWith (f : Option Fault) (a : Result) : Prop :=
  (∀ r, f = some r → a = .fault r) ∧ (f = none → ∃ t, a = .next t)

theorem faultsExactlyWith_next (t : State) : FaultsExactlyWith none (.next t) :=
  ⟨fun _ h => (nomatch h), fun _ => ⟨t, rfl⟩⟩

/-- A fault `r` under the one condition `p`. -/
theorem faultsExactlyWith_ite {p : Prop} [Decidable p] {r : Fault} {a : Result} (hp : p → a = .fault r)
    (hn : ¬ p → ∃ t, a = .next t) : FaultsExactlyWith (if p then some r else none) a := by
  split_ifs with h
  · exact ⟨fun _ hq => Option.some.inj hq ▸ hp h, fun hq => nomatch hq⟩
  · exact ⟨fun _ hq => (nomatch hq), fun _ => hn h⟩

theorem faultsExactlyWith_keyFault (op : Word) (b : Byte) (t : State) :
    FaultsExactlyWith (if 15 < b.toNat then some (.keyRange op b) else none) (checked (keyFault op b) t) :=
  faultsExactlyWith_ite (checked_keyFault_of_gt op t)
    fun h => ⟨t, checked_keyFault_of_lt op t (Nat.lt_succ_of_le (Nat.le_of_not_lt h))⟩

theorem faultsExactlyWith_dataFault (s : State) (op : Word) (n : Nat) (t : State) :
    FaultsExactlyWith
      (if 4095 < s.i.toNat + n then some (.memRangeData op s.i (max s.i.toNat 4096) (s.i.toNat + n)) else none)
      (checked (s.dataFault op (n + 1)) t) :=
  faultsExactlyWith_ite (checked_dataFault_of_gt op t) fun h => ⟨t, checked_dataFault_of_le op t (Nat.le_of_not_lt h)⟩

/-- R220, R221: an instruction takes the fault of its row and completes where the row's condition fails. -/
theorem faultsExactlyWith_exec (i : Instr) (s : State) : FaultsExactlyWith (faultOf s i) (exec i s) := by
  cases i with
  | ret => exact faultsExactlyWith_ite exec_ret_of_eq_zero fun h => ⟨_, exec_ret_of_pos (Nat.pos_of_ne_zero h)⟩
  | call nnn =>
    exact faultsExactlyWith_ite (exec_call_of_eq_16 s nnn) fun h => ⟨_, exec_call_of_lt s nnn (by omega)⟩
  | drw x y n =>
    obtain ⟨-, hnext, hfault⟩ := drwDrawsSpriteAndSetsVF x y n s
    refine faultsExactlyWith_ite (fun ⟨hn, hi⟩ => hfault hn hi) fun h => ?_
    obtain ⟨t, _, hx, -⟩ := hnext (by omega)
    exact ⟨t, hx⟩
  | skp x | sknp x => exact faultsExactlyWith_keyFault _ (s.getV x) _
  | ldBVx => exact faultsExactlyWith_dataFault s _ 2 _
  | ldMemVx x | ldVxMem x => exact faultsExactlyWith_dataFault s _ x.toNat _
  | _ => exact faultsExactlyWith_next _

theorem exec_eq_fault_iff {i : Instr} {s : State} {r : Fault} : exec i s = .fault r ↔ faultOf s i = some r := by
  obtain ⟨hsome, hnone⟩ := faultsExactlyWith_exec i s
  refine ⟨fun hx => ?_, hsome r⟩
  cases hf : faultOf s i with
  | none => obtain ⟨t, ht⟩ := hnone hf; cases ht.symm.trans hx
  | some q => cases (hsome q hf).symm.trans hx; rfl

/-! ### A driver that goes on meets the same fault -/

theorem faultOf_carryingOn (s : State) (i : Instr) : faultOf (carryingOn s) i = faultOf s i := by
  cases i <;> rfl

/-- Execute takes neither the fetch's fault nor a renderer's. -/
theorem beforeAdvance_of_faultOf {s : State} {i : Instr} {r : Fault} (h : faultOf s i = some r) :
    beforeAdvance r = false := by
  cases i with
  | ret | call | drw | skp | sknp | ldBVx | ldMemVx | ldVxMem =>
    obtain ⟨-, ⟨⟩⟩ := Option.ite_none_right_eq_some.mp h
    rfl
  | _ => cases h

theorem unrecognised_eq_fault {op : Word} {s : State} {r : Fault} :
    unrecognised op s = .fault r ↔ s.params.illegalPolicy = .report ∧ r = .illegalOpcode op s.pc := by
  cases h : s.params.illegalPolicy <;> simp [unrecognised, raise, h, eq_comm]

/-- A fault of execute does not depend on what the driver does with it, and finds pc advanced. -/
theorem execute_carryingOn_of_fault {op : Word} {s : State} {r : Fault} (h : execute op s = .fault r) :
    execute op (carryingOn s) = .fault r ∧ beforeAdvance r = false := by
  cases hd : decodeWord op with
  | some i =>
    rw [execute_of_decodeWord hd, exec_eq_fault_iff] at h
    rw [execute_of_decodeWord hd, exec_eq_fault_iff, faultOf_carryingOn]
    exact ⟨h, beforeAdvance_of_faultOf h⟩
  | none =>
    rw [execute_of_unrecognised hd, unrecognised_eq_fault] at h
    rw [execute_of_unrecognised hd, unrecognised_eq_fault]
    obtain ⟨hreport, rfl⟩ := h
    exact ⟨⟨hreport, rfl⟩, rfl⟩

/-- What the driver that goes on after the fault `r` finds, the due event apart (R223, R224). -/
def stateAfterFault (s : State) (r : Fault) : State :=
  ((carryingOn s).setPc (if beforeAdvance r then s.pc else s.pc + 2)).addFault r

theorem cycle_of_fetch_error {s : State} {r : Fault} (h : fetch s = .error r) : cycle s = reportFault r s := by
  simp only [cycle, h]

theorem driverAnswer_eq_fault {a : Result} {s : State} {r : Fault} (h : driverAnswer a s = .fault r) :
    a = .fault r := by
  cases a with
  | fault q => obtain ⟨-, rfl⟩ := reportFault_eq_fault.mp h; rfl
  | next | refused => cases h

theorem cycle_carryingOn_of_fault {s : State} {r : Fault} (h : cycle s = .fault r) :
    cycle (carryingOn s) = .next (stateAfterFault s r) := by
  cases hf : fetch s with
  | error q =>
    rw [cycle_of_fetch_error hf] at h
    obtain ⟨-, rfl⟩ := reportFault_eq_fault.mp h
    obtain ⟨-, rfl⟩ := fetch_eq_error.mp hf
    exact cycle_of_fetch_error (s := carryingOn s) hf
  | ok op =>
    rw [cycle_of_fetch hf] at h
    obtain ⟨hx, hadvanced⟩ := execute_carryingOn_of_fault (driverAnswer_eq_fault h)
    have hadvance : (carryingOn s).advance = carryingOn s.advance := rfl
    rw [cycle_of_fetch (s := carryingOn s) hf, hadvance, hx, stateAfterFault, hadvanced]
    rfl

theorem Display.isSet_eq_error {d : Display} {x y : Nat} {r : Fault} (h : d.isSet x y = .error r) :
    r = .pixelRange x y := by
  unfold Display.isSet at h
  split at h <;> cases h
  rfl

theorem hostMove_carryingOn_of_fault {e : HostEvent} {s : State} {r : Fault} (h : hostMove e s = .fault r) :
    hostMove e (carryingOn s) = .next (stateAfterFault s r) := by
  cases e with
  | cycle => exact cycle_carryingOn_of_fault h
  | pixel x y =>
    have h : renderPixel x y s = .fault r := h
    cases hset : s.disp.isSet x y with
    | ok b => cases (renderPixel_of_isSet_ok hset).symm.trans h
    | error q =>
      rw [renderPixel_of_isSet_error hset] at h
      obtain ⟨-, rfl⟩ := reportFault_eq_fault.mp h
      obtain rfl := Display.isSet_eq_error hset
      exact renderPixel_of_isSet_error (s := carryingOn s) hset
  | _ => cases h

/-- Whatever the next move is, its fault leaves the driver that goes on the state above, the due event used up. -/
theorem step_carryingOn_of_fault {s : State} {r : Fault} (h : step s = .fault r) :
    step (carryingOn s) = .next (stateAfterFault (s.setHost s.host.tail) r) := by
  obtain ⟨x, -, hs⟩ | ⟨hw, hh, -⟩ | ⟨e, es, hw, hh, hs⟩ := step_cases s
  · cases hs.symm.trans h
  · have hdue : CycleIsDue s [] := ⟨hw, .inl ⟨hh, rfl⟩⟩
    rw [step_of_cycleIsDue hdue] at h
    rw [step_of_cycleIsDue (s := carryingOn s) hdue, hh]
    exact cycle_carryingOn_of_fault h
  · rw [hs] at h
    rw [step_of_host_cons (s := carryingOn s) hw hh, hh]
    exact hostMove_carryingOn_of_fault h

end Sys2Proof.Machine

open Sys2Proof Sys2Proof.Machine

/-- Settles O9, instruction by instruction: the one check of each is the condition of its row. -/
theorem instructionsFaultExactlyWhenListed : Obligations.InstructionsFaultExactlyWhenListed :=
  faultsExactlyWith_exec

/-- Settles O8: a step that goes on meets the fault of the step that halts, and pc is advanced in it unless the fault comes
before execute. -/
theorem faultsArePrecise : Obligations.FaultsArePrecise :=
  fun _ _ _ h => ⟨_, step_carryingOn_of_fault h, rfl⟩

/-- Settles O6: the fetch faults before the advance, and the driver halts or adds the report. -/
theorem fetchFaultLeavesPc : Obligations.FetchFaultLeavesPc := by
  intro s es hdue hpc
  have hfetch : fetch (s.setHost es) = .error (.memRangeFetch s.pc) :=
    fetch_eq_error.mpr ⟨Nat.succ_le_succ hpc, rfl⟩
  rw [step_of_cycleIsDue hdue, cycle_of_fetch_error hfetch]
  exact ⟨fun hhalt => reportFault_eq_fault.mpr ⟨hhalt, rfl⟩, fun hgo => reportFault_eq_next.mpr ⟨hgo, rfl⟩⟩

/-- Settles O10, by the definition of the codes. -/
theorem faultCodesAreTheTable : Obligations.FaultCodesAreTheTable :=
  ⟨fun _ _ _ _ => rfl, fun _ => rfl, fun _ _ => rfl, fun _ _ => rfl, fun _ _ => rfl, fun _ _ => rfl, fun _ _ => rfl⟩
end

section
/-! # The loader, the placing of an opcode, and a finished program -/

namespace Sys2Proof.Machine

open Sys2Proof.Claims

/-- R266: the image fits between the load offset and the end of memory. -/
theorem load_of_le {image : List Byte} (s : State) (h : image.length ≤ 3584) :
    load image s = .next (s.storeBytes 0x200 image) := by
  unfold load
  exact if_pos (by simp only [Config.loadOffset, Config.memSize]; omega)

theorem load_of_gt {image : List Byte} (s : State) (h : 3584 < image.length) :
    load image s = .refused (.imageTooLarge image.length) := by
  unfold load
  exact if_neg (by simp only [Config.loadOffset, Config.memSize]; omega)

/-! ### Placing an opcode -/

theorem toNat_fetchPlace_lt (s : State) : (fetchPlace s).toNat + 1 < 4096 := by
  unfold fetchPlace
  split_ifs with h
  · exact h
  · decide

/-- The placed opcode is the one the next cycle fetches. -/
theorem fetch_placeOpcode (s : State) (op : Word) : fetch (placeOpcode s op) = .ok op := by
  refine fetch_eq_ok.mpr ⟨toNat_fetchPlace_lt s, ?_⟩
  have hhi := s.readByte_storeBytes_add (fetchPlace s).toNat (bs := bytesOfWord op) (j := 0) Nat.two_pos
  have hlo := s.readByte_storeBytes_add (fetchPlace s).toNat (bs := bytesOfWord op) (j := 1) Nat.one_lt_two
  exact (wordOfBytes_bytesOfWord op).symm.trans (congrArg₂ wordOfBytes hhi hlo).symm

theorem withFetchWord_eq_placeOpcode (s : State) (n : Nat) (op : Word) :
    s.withFetchWord n op.toNat = placeOpcode s op := by
  rw [State.withFetchWord, BitVec.ofNat_toNat, BitVec.setWidth_eq]

/-! ### A jump to itself -/

/-- Below 4096 an address is its own low 12 bits. -/
theorem addrOf_setWidth_of_lt {a : Word} (h : a.toNat < 4096) : addrOf (a.setWidth 12) = a := by
  apply BitVec.eq_of_toNat_eq
  rw [toNat_addrOf, BitVec.toNat_setWidth, Nat.mod_eq_of_lt h]

end Sys2Proof.Machine

open Sys2Proof Sys2Proof.Machine

/-- Settles O3: an image that fits is one store at the load offset. -/
theorem loaderPlacesImageVerbatim : Obligations.LoaderPlacesImageVerbatim :=
  fun image s => ⟨fun h => ⟨_, load_of_le s h, fun _ hj => s.readByte_storeBytes_add 0x200 hj,
    (Unchanged.refl { storeAt := 0x200, storeLen := image.length } s).storeBytes rfl⟩, load_of_gt s⟩

/-- Settles O12: the placed opcode is fetched, with nothing due before it. -/
theorem placedInstructionRunsNext : Obligations.PlacedInstructionRunsNext := by
  intro s t i hx
  rw [withFetchWord_eq_placeOpcode] at hx ⊢
  exact step_of_fetch_encode rfl rfl (fetch_placeOpcode s (encode i)) hx

/-- Settles O58: the jump writes back the pc it was fetched from. -/
theorem jumpToItselfIsFinal : Obligations.JumpToItselfIsFinal := by
  intro s es ⟨hpc, hf⟩ hdue
  have hback : addrOf (s.pc.setWidth 12) = s.pc := addrOf_setWidth_of_lt (Nat.lt_of_succ_lt hpc)
  rw [step_of_cycleIsDue hdue, cycle_of_fetch (s := s.setHost es) hf, execute_of_decodeWord (decodeWord_encode _)]
  exact congrArg (fun a => Host.Outcome.next (({ s with host := es } : State).setPc a)) hback
end
